-- ==== Sys2Proof/Word.lean ====
section
/-! DEFINITION. The two data widths of BFX: a bit (tape) and a byte (streams, source text). Spec: 00_scope.md R7. -/

namespace Sys2Proof

/-- A bit, 0 or 1 (00_scope.md R7). -/
abbrev Bit := BitVec 1

/-- A byte `b[7:0]`, bit 0 the least significant (00_scope.md R7). Source characters are bytes too
(30_encoding.md R62). -/
abbrev Byte := BitVec 8

end Sys2Proof
end

