-- ==== Sys2Proof/Syntax.lean ====
section
/-! DEFINITION. The eight source symbols (one constructor per row of spec/opcode_table.json, in the table's order) and
the seven operations they decode to. Spec: 30_encoding.md R60, R61; 10_state.md R14. -/

namespace Sys2Proof

/-- An instruction as the source text spells it: one of the eight command symbols (30_encoding.md R60). No instruction
has an operand field (R64, R65). -/
inductive Instr where
  /-- `+`, TGL_PLUS (41_tape_ops.md R100). -/
  | tglPlus
  /-- `,`, IN (42_io_ops.md R112). -/
  | inBit
  /-- `-`, TGL_MINUS (41_tape_ops.md R101). -/
  | tglMinus
  /-- `.`, OUT (42_io_ops.md R115). -/
  | outBit
  /-- `<`, LEFT (41_tape_ops.md R102). -/
  | left
  /-- `>`, RIGHT (41_tape_ops.md R103). -/
  | right
  /-- `[`, JZF (43_jump_ops.md R130). -/
  | jzf
  /-- `]`, JNZB (43_jump_ops.md R131). -/
  | jnzb
deriving DecidableEq, Repr

/-- A stored operation: what the instruction store holds (10_state.md R14, 30_encoding.md R61), in the order of
30_encoding.md R66. -/
inductive Operation where
  | toggleBit
  | moveLeft
  | moveRight
  | readBit
  | writeBit
  | jumpIfZeroForward
  | jumpIfNonZeroBackward
deriving DecidableEq, Repr

end Sys2Proof
end

