-- ==== Sys2Proof/Config.lean ====
section
/-! DEFINITION. The implementation parameters of 00_scope.md R6, and the free values of the model (opaque constants
without a body). -/

namespace Sys2Proof

/-- The parameter record `cfg` (00_scope.md R6, 10_state.md R23). `none` is the infinite bound, or no budget. -/
structure Cfg where
  /-- EOF_BIT: the bit delivered at end of input (42_io_ops.md R113). -/
  eofBit : Bit
  /-- PTR_MIN (41_tape_ops.md R104); `none` is minus infinity. -/
  ptrMin : Option Int
  /-- PTR_MAX (41_tape_ops.md R105); `none` is plus infinity. -/
  ptrMax : Option Int
  /-- PROG_MAX (40_loader_bracket_table.md R86); `none` is infinity. -/
  progMax : Option Nat
  /-- STEP_BUDGET (44_engine_cycle.md R146). -/
  stepBudget : Option Nat
deriving DecidableEq, Repr

/-- The reference configuration of 00_scope.md R6. -/
def Cfg.reference : Cfg :=
  { eofBit := 1, ptrMin := none, ptrMax := none, progMax := none, stepBudget := none }

/-- FREE VALUE (log 8). What the instruction store holds after the n-th failed load: 93_implementation_defined.md U18,
"any value". No body: nothing can be proved of it. -/
opaque Config.progAfterFailedLoad : Nat → List Operation

/-- FREE VALUE (log 8). What the bracket table holds after the n-th failed load: 93_implementation_defined.md U18, "any
value". No body: nothing can be proved of it. -/
opaque Config.jumpTableAfterFailedLoad : Nat → List (Option Nat)

end Sys2Proof
end

