-- ==== Sys2Proof/WellFormed.lean ====
section
/-! DEFINITION. Well-formedness of what is given to BFX: an instruction, a configuration (00_scope.md R6) and a loaded
Program (40_loader_bracket_table.md R85). -/

namespace Sys2Proof

/-- Every instruction is well formed: none has an operand, an immediate or a reserved field (30_encoding.md R64, R65,
R68). -/
def Instr.wellFormed : Instr → Bool
  | .tglPlus | .inBit | .tglMinus | .outBit | .left | .right | .jzf | .jnzb => true

/-- `PTR_MIN <= 0`, half of the legality constraint of 00_scope.md R6. -/
abbrev Cfg.MinOk (c : Cfg) : Prop := ∀ m ∈ c.ptrMin, m ≤ 0

/-- `0 <= PTR_MAX`, the other half of 00_scope.md R6. -/
abbrev Cfg.MaxOk (c : Cfg) : Prop := ∀ m ∈ c.ptrMax, 0 ≤ m

/-- A legal configuration: `PTR_MIN <= 0 <= PTR_MAX` (00_scope.md R6). -/
abbrev Cfg.Legal (c : Cfg) : Prop := c.MinOk ∧ c.MaxOk

/-- The two operations that use the bracket table. -/
def Operation.isBracket : Operation → Bool
  | .jumpIfZeroForward | .jumpIfNonZeroBackward => true
  | .toggleBit | .moveLeft | .moveRight | .readBit | .writeBit => false

/-- `jt[i]`: an index, or `none` for NONE (and outside the table). -/
def jumpAt (jt : List (Option Nat)) (i : Nat) : Option Nat := jt[i]?.join

/-- 40_loader_bracket_table.md R85 item 1, with `jt` having `len` entries (10_state.md R15): an entry is not NONE
exactly at the brackets. -/
abbrev EntriesAtBrackets (prog : List Operation) (jt : List (Option Nat)) : Prop :=
  jt.length = prog.length ∧ ∀ i < prog.length, (jumpAt jt i).isSome = (prog[i]?.any Operation.isBracket)

/-- R85 item 2: a forward bracket's entry is a later backward bracket. -/
abbrev ForwardLinks (prog : List Operation) (jt : List (Option Nat)) : Prop :=
  ∀ i < prog.length, prog[i]? = some .jumpIfZeroForward →
    ∀ j ∈ jumpAt jt i, i < j ∧ prog[j]? = some .jumpIfNonZeroBackward

/-- R85 item 3: a backward bracket's entry is an earlier forward bracket. -/
abbrev BackwardLinks (prog : List Operation) (jt : List (Option Nat)) : Prop :=
  ∀ i < prog.length, prog[i]? = some .jumpIfNonZeroBackward →
    ∀ j ∈ jumpAt jt i, j < i ∧ prog[j]? = some .jumpIfZeroForward

/-- R85 item 4: the round-trip pairing, `jt[jt[i]] = i`. -/
abbrev LinksPaired (prog : List Operation) (jt : List (Option Nat)) : Prop :=
  ∀ i < prog.length, ∀ j ∈ jumpAt jt i, jumpAt jt j = some i

/-- R85 item 5: a bracket strictly inside a pair is linked strictly inside it. -/
abbrev LinksNested (prog : List Operation) (jt : List (Option Nat)) : Prop :=
  ∀ i < prog.length, ∀ j ∈ jumpAt jt i, ∀ k < prog.length, i < k ∧ k < j → ∀ m ∈ jumpAt jt k, i < m ∧ m < j

/-- R85 item 6: every entry is an index of the store, so `jt[i] + 1 <= len`. -/
abbrev LinksInRange (prog : List Operation) (jt : List (Option Nat)) : Prop :=
  ∀ i < prog.length, ∀ j ∈ jumpAt jt i, j < prog.length

/-- A well-formed Program: items 1 to 6 of 40_loader_bracket_table.md R85. -/
abbrev ProgramOk (prog : List Operation) (jt : List (Option Nat)) : Prop :=
  EntriesAtBrackets prog jt ∧ ForwardLinks prog jt ∧ BackwardLinks prog jt ∧
    LinksPaired prog jt ∧ LinksNested prog jt ∧ LinksInRange prog jt

end Sys2Proof
end

