-- ==== Sys2Proof/Decode.lean ====
section
/-! DEFINITION. Decode of source characters and of stored opcodes, and the encoders. Spec: 30_encoding.md R61, R62, R63,
R64, R66. -/

namespace Sys2Proof

/-- One row of the opcode map (30_encoding.md section 5; spec/opcode_table.json). -/
structure OpcodeRow where
  instr : Instr
  pattern : Byte
  mask : Byte
deriving DecidableEq, Repr

/-- The opcode map, in the order of spec/opcode_table.json. -/
def opcodeTable : List OpcodeRow :=
  [ ⟨.tglPlus, 0x2B, 0xFF⟩,
    ⟨.inBit, 0x2C, 0xFF⟩,
    ⟨.tglMinus, 0x2D, 0xFF⟩,
    ⟨.outBit, 0x2E, 0xFF⟩,
    ⟨.left, 0x3C, 0xFF⟩,
    ⟨.right, 0x3E, 0xFF⟩,
    ⟨.jzf, 0x5B, 0xFF⟩,
    ⟨.jnzb, 0x5D, 0xFF⟩ ]

/-- "A character `c` selects a row iff `(c & mask) = match`" (30_encoding.md section 5). -/
def OpcodeRow.selects (c : Byte) (r : OpcodeRow) : Bool := c &&& r.mask == r.pattern

/-- What a source character decodes to (30_encoding.md R61): an instruction, or SKIP, which is no error (R63, R68). -/
inductive Decoded where
  | command (i : Instr)
  | skip
deriving DecidableEq, Repr

/-- `decode : character -> operation or SKIP` (30_encoding.md R61, R63), total on the 256 codes. -/
def decodeChar (c : Byte) : Decoded :=
  match opcodeTable.find? (OpcodeRow.selects c) with
  | some r => .command r.instr
  | none => .skip

/-- The commands of a text, in order; skipped characters give nothing (30_encoding.md R63, R67). -/
def decodeText : List Byte → List Instr
  | [] => []
  | c :: rest =>
    match decodeChar c with
    | .command i => i :: decodeText rest
    | .skip => decodeText rest

/-- The operation a symbol stands for (30_encoding.md R61): the two toggles are one operation. -/
def Instr.operation : Instr → Operation
  | .tglPlus => .toggleBit
  | .inBit => .readBit
  | .tglMinus => .toggleBit
  | .outBit => .writeBit
  | .left => .moveLeft
  | .right => .moveRight
  | .jzf => .jumpIfZeroForward
  | .jnzb => .jumpIfNonZeroBackward

/-- The instruction the engine dispatches a stored operation to. "After decode nothing distinguishes a ToggleBit that
came from `+` from one that came from `-`" (30_encoding.md R61): the toggle is run as `+` (log 2). -/
def Operation.instr : Operation → Instr
  | .toggleBit => .tglPlus
  | .moveLeft => .left
  | .moveRight => .right
  | .readBit => .inBit
  | .writeBit => .outBit
  | .jumpIfZeroForward => .jzf
  | .jumpIfNonZeroBackward => .jnzb

/-- The 3-bit internal opcode of a stored operation (30_encoding.md R66). -/
def Operation.iop : Operation → BitVec 3
  | .toggleBit => 0b000
  | .moveLeft => 0b001
  | .moveRight => 0b010
  | .readBit => 0b011
  | .writeBit => 0b100
  | .jumpIfZeroForward => 0b101
  | .jumpIfNonZeroBackward => 0b110

/-- The operation of an internal opcode (30_encoding.md R66); 111 is unused and stands for none (U7). -/
def operationOfIop (c : BitVec 3) : Option Operation :=
  [Operation.toggleBit, .moveLeft, .moveRight, .readBit, .writeBit, .jumpIfZeroForward, .jumpIfNonZeroBackward][c.toNat]?

/-- The character code of a symbol (30_encoding.md R62). -/
def charCode : Instr → Byte
  | .tglPlus => 0x2B
  | .inBit => 0x2C
  | .tglMinus => 0x2D
  | .outBit => 0x2E
  | .left => 0x3C
  | .right => 0x3E
  | .jzf => 0x5B
  | .jnzb => 0x5D

/-- The words of an instruction: one 8-bit character (30_encoding.md R64). -/
def encode (i : Instr) : List Byte := [charCode i]

/-- The first character of an instruction whose bits are `w`: its low 8 bits (30_encoding.md R64; the first character at
the lowest position). Characters above it belong to what follows. -/
def firstCharOfWord (nbits w : Nat) : Byte := BitVec.ofNat 8 (w % 2 ^ nbits)

/-- The instruction the decoder reads from an instruction whose bits are `w`. -/
def decodeTableWord (nbits w : Nat) : Option Instr :=
  match decodeChar (firstCharOfWord nbits w) with
  | .command i => some i
  | .skip => none

end Sys2Proof
end

