-- ==== Sys2Proof/Machine/State.lean ====
section
/-! DEFINITION. The state of BFX (10_state.md R10), the host's side as plain data (R25), the reasons a step can stop, and
the state at power-on (10_state.md R27, 70_reset_and_hazards.md R211). -/

namespace Sys2Proof.Machine

/-- The tape `T` (10_state.md R11): address and bit pairs in canonical form, addresses strictly rising and no bit 0. An
unlisted address reads 0, by R11's own words. The unit is one bit and addresses are signed (20_memory.md R40, R41),
so the pairs are not bytes (log 1). -/
abbrev Tape := List (Int × Bit)

/-- The RuntimeFault causes (60_exceptions.md R184). -/
inductive FaultCause where
  /-- `OutPush` answered Fail (42_io_ops.md R115). -/
  | outputUnwritable
  /-- `steps` met the budget at a step boundary (44_engine_cycle.md R146). -/
  | stepBudgetExceeded
  /-- `stop_req` was sampled asserted (44_engine_cycle.md R147). -/
  | cancelled
  /-- A move would leave the implemented range (41_tape_ops.md R104, R105). -/
  | tapeRange
  /-- The text has more than PROG_MAX commands: raised by `LOAD` only, never in the register `fault`
  (40_loader_bracket_table.md R86, 60_exceptions.md R187). -/
  | programTooLong
deriving DecidableEq, Repr

/-- `ld_state` (10_state.md R22). -/
inductive LoadState where
  | unloaded
  | loaded
  | loadFailed
deriving DecidableEq, Repr

/-- `err_kind` (10_state.md R22, 60_exceptions.md R181). -/
inductive LoadErrorKind where
  | unmatchedBackward
  | unmatchedForward
  | programTooLong
deriving DecidableEq, Repr

/-- The host's answer to an `OutPush` (45_host_interface.md R164). -/
inductive OutAnswer where
  | ok
  | fail
deriving DecidableEq, Repr

/-- A function of a natural number as plain data: its values at 0, 1, 2, …, and its value from there on (log 4). -/
structure Schedule (α : Type) where
  first : List α
  rest : α
deriving DecidableEq, Repr

/-- The host's side of a run: what answers `InPull` and `OutPush` and what drives `stop_req` (10_state.md R25,
45_host_interface.md R160). Inputs of the rules, not state of BFX (log 4). -/
structure HostSide where
  /-- The input stream `inp`, followed by end of stream (20_memory.md R43). -/
  inp : List Byte
  /-- How many step attempts the `InPull` number n stays unanswered; `none`: for ever (44_engine_cycle.md R150). -/
  inDelay : Schedule (Option Nat)
  /-- The answer to the `OutPush` number n (45_host_interface.md R164). -/
  outAnswer : Schedule OutAnswer
  /-- `stop_req` at the boundary where `steps` is n (44_engine_cycle.md R147). -/
  stop : Schedule Bool
deriving DecidableEq, Repr

/-- A host with no input, that answers at once, accepts every byte and never asks to stop. -/
def HostSide.quiet : HostSide :=
  { inp := [], inDelay := ⟨[], some 0⟩, outAnswer := ⟨[], .ok⟩, stop := ⟨[], false⟩ }

/-- The state. The fields up to `cfg` are the tuple of 10_state.md R10; the rest is implied by the spec (`started`,
`hold`), the host's (`host`, `out`) or the model's own (`freeCount`). -/
structure State where
  /-- `T` (R11). -/
  tape : Tape
  /-- `P` (R12). -/
  ptr : Int
  /-- `ip` (R13). -/
  ip : Nat
  /-- `steps` (R20). -/
  steps : Nat
  /-- `fault` (R21). -/
  fault : Option FaultCause
  /-- `prog` (R14). -/
  prog : List Operation
  /-- `jt`; `none` is NONE (R15). -/
  jt : List (Option Nat)
  /-- `ld_state` (R22). -/
  ldState : LoadState
  /-- `err_kind`, meaningful when `ldState` is `loadFailed` (R22). -/
  errKind : LoadErrorKind
  /-- `err_pos`, meaningful when `ldState` is `loadFailed` (R22). -/
  errPos : Nat
  /-- `in_buf` (R16). -/
  inBuf : Byte
  /-- `in_rem` (R16). -/
  inRem : Nat
  /-- `in_cur` (R17). -/
  inCur : Nat
  /-- `in_eos` (R17). -/
  inEos : Bool
  /-- `out_buf` (R18). -/
  outBuf : Byte
  /-- `out_cnt` (R18). -/
  outCnt : Nat
  /-- `out_cur` (R19). -/
  outCur : Nat
  /-- `cfg` (R23). -/
  cfg : Cfg
  /-- Whether `START` has been accepted since the last `LOAD`: "the engine steps only after `START`"
  (70_reset_and_hazards.md R212; log 3). -/
  started : Bool
  /-- The `InPull` the engine is held in, and for how many step attempts (44_engine_cycle.md R150; log 5). -/
  hold : Option Nat
  /-- The host's side of the run (R25; log 4). -/
  host : HostSide
  /-- The bytes answered Ok so far, in order (20_memory.md R43, 44_engine_cycle.md R152). -/
  out : List Byte
  /-- MODEL: how many free values have been used (log 8). -/
  freeCount : Nat
deriving DecidableEq, Repr

/-- `len`, the length of `prog` (10_state.md R10, R14). -/
abbrev State.len (s : State) : Nat := s.prog.length

/-- Where a step of the model stops without a next state. Neither arises under the invariant `Inv` (log 11): both are
states the spec rules out, and stopping there is safe. -/
inductive Fault where
  /-- Raised by JZF and JNZB when a taken jump finds NONE in the table, which the spec never reads (10_state.md R15).
  Safe. -/
  | noJumpTarget
  /-- Raised by the fetch when `ip` is above `len`, which no rule produces (10_state.md R13). Safe. -/
  | fetchOutsideStore
deriving DecidableEq, Repr

/-- What the model gives no meaning to. -/
inductive Refusal where
  /-- Kept for an instruction that has no meaning yet; none is left. Safe. -/
  | notModelled (mnemonic : String)
  /-- Raised by `load`: `LOAD` while the engine is Running has no meaning (70_reset_and_hazards.md R215,
  93_implementation_defined.md U11). Safe. -/
  | loadWhileRunning
  /-- Raised by `setCfg`: a change of `cfg` during a run has no meaning (R215, U11). Safe. -/
  | cfgWhileRunning
  /-- Raised by `setCfg`: an illegal configuration (00_scope.md R6). Safe. -/
  | cfgIllegal
deriving DecidableEq, Repr

/-- BFX at power-on: the reset values of 10_state.md R27, with nothing loaded (70_reset_and_hazards.md R210, R211).
`cfg` (log 6), `errKind` and `errPos` (log 7), the host's side (log 4) and `freeCount` (log 8) are the model's
choices. -/
def State.reset : State :=
  { tape := []
    ptr := 0
    ip := 0
    steps := 0
    fault := none
    prog := []
    jt := []
    ldState := .unloaded
    errKind := .unmatchedBackward
    errPos := 0
    inBuf := 0x00
    inRem := 0
    inCur := 0
    inEos := false
    outBuf := 0x00
    outCnt := 0
    outCur := 0
    cfg := Cfg.reference
    started := false
    hold := none
    host := HostSide.quiet
    out := []
    freeCount := 0 }

end Sys2Proof.Machine
end

