-- ==== Sys2Proof/Machine/Ops.lean ====
section
/-! DEFINITION. The shared operations: bits of a byte, tape reads and writes, the updates an instruction makes, fault
entry, and the reset that is the only way out of a fault. Spec: 20_memory.md R41, R44; 41_tape_ops.md R107;
44_engine_cycle.md R144; 60_exceptions.md R187; 10_state.md R27. -/

namespace Sys2Proof.Machine

/-- The value of a schedule at `n`. -/
def scheduleAt {α : Type} (f : Schedule α) (n : Nat) : α := f.first[n]?.getD f.rest

/-! ## Bits of a byte -/

/-- `b[i]`, bit 0 the least significant (00_scope.md R7, 20_memory.md R44). -/
def bitOf (b : Byte) (i : Nat) : Bit := b.extractLsb' i 1

/-- `b` "with bit `i` set to `v`", the other bits unchanged (42_io_ops.md R114). -/
def withBit (b : Byte) (i : Nat) (v : Bit) : Byte := (b &&& ~~~((1 : Byte) <<< i)) ||| (v.setWidth 8 <<< i)

/-! ## The tape -/

/-- `T[a]`, `MemRead(a, 1)` (00_scope.md R8): never fails, 0 where nothing is listed (10_state.md R11). -/
def readTape : Tape → Int → Bit
  | [], _ => 0
  | (a, v) :: rest, x => if x = a then v else readTape rest x

/-- `T[a] <- v`, `MemWrite(a, 1, v)` (00_scope.md R8), keeping the canonical form. -/
def writeTape : Tape → Int → Bit → Tape
  | [], x, v => if v = 0 then [] else [(x, v)]
  | (a, w) :: rest, x, v =>
    if x < a then (if v = 0 then (a, w) :: rest else (x, v) :: (a, w) :: rest)
    else if x = a then (if v = 0 then rest else (x, v) :: rest)
    else (a, w) :: writeTape rest x v

/-- The canonical form of a tape: addresses strictly rising, no entry equal to the 0 an unlisted address reads as. -/
abbrev tapeWf (t : Tape) : Prop := t.Pairwise (fun x y => x.1 < y.1) ∧ ∀ c ∈ t, c.2 ≠ 0

/-- `T[P] <- v` (41_tape_ops.md R107, the fourth access). -/
def writeCurrent (v : Bit) (s : State) : State := { s with tape := writeTape s.tape s.ptr v }

/-- `P <- p`: the pointer half of `move` (41_tape_ops.md R107). -/
def setPtr (p : Int) (s : State) : State := { s with ptr := p }

/-! ## Completion -/

/-- An instruction completes with `ip <- n` and `steps <- steps + 1` (44_engine_cycle.md R144). -/
def completeAt (n : Nat) (s : State) : State := { s with ip := n, steps := s.steps + 1 }

/-- "advance by 1" (44_engine_cycle.md R143). -/
def advance (s : State) : State := completeAt (s.ip + 1) s

/-! ## Taking a fault, and the way out of it -/

/-- Fault entry, `raise RuntimeFault(cause)`: `fault <- cause` and nothing else changes (60_exceptions.md R187). There is
no saved state, vector or mode to write, and no return from a fault (R189). -/
def raiseFault (c : FaultCause) (s : State) : State := { s with fault := some c }

/-- Reset, the only way out of a fault (60_exceptions.md R189): exactly the elements of 10_state.md R27 take the values
given there; `prog`, `jt`, the load status and `cfg` are left alone (70_reset_and_hazards.md R210, R211). With them
the hold ends and the output sequence starts empty (44_engine_cycle.md R152). -/
def resetRun (s : State) : State :=
  { s with
    tape := [], ptr := 0, ip := 0, inBuf := 0x00, inRem := 0, inCur := 0, inEos := false,
    outBuf := 0x00, outCnt := 0, outCur := 0, steps := 0, fault := none, hold := none, out := [] }

end Sys2Proof.Machine
end

