-- ==== Sys2Proof/Machine/Operands.lean ====
section
/-! DEFINITION. The implicit operands (30_encoding.md R65): the current bit, and the target of a bracket. The pointer is
the field `ptr`; the BSIO buffers are in Bsio.lean. No instruction has an explicit operand. -/

namespace Sys2Proof.Machine

/-- `read_current()`, `T[P]`: the only addressing mode (20_memory.md R41, 41_tape_ops.md R107). -/
def currentBit (s : State) : Bit := readTape s.tape s.ptr

/-- `jt[ip] + 1`, the target of a taken bracket (30_encoding.md R65, 43_jump_ops.md R130, R131); `none` where the table
holds NONE. -/
def jumpTarget (s : State) : Option Nat := (jumpAt s.jt s.ip).map (· + 1)

end Sys2Proof.Machine
end

