-- ==== Sys2Proof/Machine/Bsio.lean ====
section
/-! DEFINITION. BSIO, the bit-serial packer and unpacker, and the two stream transactions it issues. Spec: 42_io_ops.md
R110, R111, R113, R114; 45_host_interface.md R163, R164; 20_memory.md R43. -/

namespace Sys2Proof.Machine

/-- What `InPull()` brings: an answer of the host (45_host_interface.md R163), or none yet (44_engine_cycle.md R150). -/
inductive PullAnswer where
  | byte (b : Byte)
  | eos
  | unanswered
deriving DecidableEq, Repr

/-- Whether the host answers the pending `InPull` at this attempt (44_engine_cycle.md R150; log 5). The pull's number is
`in_cur`: every earlier pull brought one byte. -/
def hostAnswersPull (s : State) : Bool :=
  match scheduleAt s.host.inDelay s.inCur with
  | none => false
  | some n => n ≤ s.hold.getD 0

/-- `InPull()`: `Byte(inp[in_cur])` when `in_cur < |inp|`, and `Eos` otherwise (20_memory.md R43). -/
def inPull (s : State) : PullAnswer :=
  if hostAnswersPull s then
    match s.host.inp[s.inCur]? with
    | some b => .byte b
    | none => .eos
  else .unanswered

/-- `in_buf <- b; in_rem <- 8; in_cur <- in_cur + 1` (42_io_ops.md R111); the hold is over. -/
def takeByte (b : Byte) (s : State) : State :=
  { s with inBuf := b, inRem := 8, inCur := s.inCur + 1, hold := none }

/-- `in_eos <- 1` (42_io_ops.md R111); the hold is over. -/
def takeEos (s : State) : State := { s with inEos := true, hold := none }

/-- The pull of `read_bit()`: only when the current byte is exhausted and the stream has not ended (42_io_ops.md R111).
`none` while the host has not answered. -/
def pullIfExhausted (s : State) : Option State :=
  if s.inRem = 0 ∧ s.inEos = false then
    match inPull s with
    | .byte b => some (takeByte b s)
    | .eos => some (takeEos s)
    | .unanswered => none
  else some s

/-- `in_rem <- in_rem - 1` (42_io_ops.md R111). -/
def dropInputBit (s : State) : State := { s with inRem := s.inRem - 1 }

/-- The delivery of `read_bit()`: `EOF_BIT` if there is still nothing, else `in_buf[8 - in_rem]` (42_io_ops.md R111,
R113). -/
def deliverBit (s : State) : Bit × State :=
  if s.inRem = 0 then (s.cfg.eofBit, s) else (bitOf s.inBuf (8 - s.inRem), dropInputBit s)

/-- `read_bit()` (42_io_ops.md R111): the bit and the state after, or `none` while the host has not answered. -/
def readBit (s : State) : Option (Bit × State) := (pullIfExhausted s).map deliverBit

/-- A step attempt in a held IN: nothing of BFX changes (44_engine_cycle.md R150); the outstanding pull is one attempt
older. -/
def holdInput (s : State) : State := { s with hold := some (s.hold.getD 0 + 1) }

/-- `OutPush(b)`: the host's answer to the push number `out_cur` (45_host_interface.md R164). -/
def outPush (_b : Byte) (s : State) : OutAnswer := scheduleAt s.host.outAnswer s.outCur

/-- `out_buf <- w; out_cnt <- out_cnt + 1` (42_io_ops.md R114). -/
def packBit (w : Byte) (s : State) : State := { s with outBuf := w, outCnt := s.outCnt + 1 }

/-- A byte is answered Ok: `out <- out ++ [b]`, and `out_buf <- 0x00; out_cnt <- 0; out_cur <- out_cur + 1`
(20_memory.md R43, 42_io_ops.md R114). -/
def pushByte (w : Byte) (s : State) : State :=
  { s with outBuf := 0x00, outCnt := 0, outCur := s.outCur + 1, out := s.out ++ [w] }

/-- `write_bit(b)` (42_io_ops.md R114): the state after, or `none` where it raises OutputUnwritable. -/
def writeBit (b : Bit) (s : State) : Option State :=
  let w := withBit s.outBuf s.outCnt b
  if s.outCnt < 7 then some (packBit w s)
  else
    match outPush w s with
    | .ok => some (pushByte w s)
    | .fail => none

end Sys2Proof.Machine
end

