-- ==== Sys2Proof/Machine/IoOps.lean ====
section
/-! DEFINITION. The two I/O instructions. Spec: 42_io_ops.md R112, R115. -/

namespace Sys2Proof.Machine

/-- IN `,` (42_io_ops.md R112): `T[P] <- read_bit()`, or held while the host has not answered (44_engine_cycle.md
R150). -/
def execInBit (s : State) : Host.Outcome State Fault Refusal :=
  match readBit s with
  | some (v, t) => .next (advance (writeCurrent v t))
  | none => .next (holdInput s)

/-- OUT `.` (42_io_ops.md R115): `write_bit(T[P])`, or the fault OutputUnwritable. -/
def execOutBit (s : State) : Host.Outcome State Fault Refusal :=
  match writeBit (currentBit s) s with
  | some t => .next (advance t)
  | none => .next (raiseFault .outputUnwritable s)

end Sys2Proof.Machine
end

