-- ==== Sys2Proof/Machine/Flags.lean ====
section
/-! DEFINITION. BFX has no flags, condition codes or predicates (10_state.md R24). What the two conditional operations
test is the current bit itself, at the moment they execute. -/

namespace Sys2Proof.Machine

/-- "current bit == 0" (43_jump_ops.md R130). -/
def currentIsZero (s : State) : Bool := currentBit s == 0

/-- "current bit != 0" (43_jump_ops.md R131). -/
def currentIsNonzero (s : State) : Bool := currentBit s != 0

end Sys2Proof.Machine
end

