-- ==== Sys2Proof/Machine/JumpOps.lean ====
section
/-! DEFINITION. The two conditional jumps. Spec: 43_jump_ops.md R130, R131. -/

namespace Sys2Proof.Machine

/-- A taken jump: `ip <- jt[ip] + 1` (43_jump_ops.md R130, R131). NONE is never read in a loaded Program (10_state.md
R15); where the table holds it the model stops (log 11). -/
def takeJump (s : State) : Host.Outcome State Fault Refusal :=
  match jumpTarget s with
  | some n => .next (completeAt n s)
  | none => .fault .noJumpTarget

/-- JZF `[` (43_jump_ops.md R130). -/
def execJzf (s : State) : Host.Outcome State Fault Refusal :=
  if currentIsZero s then takeJump s else .next (advance s)

/-- JNZB `]` (43_jump_ops.md R131). -/
def execJnzb (s : State) : Host.Outcome State Fault Refusal :=
  if currentIsNonzero s then takeJump s else .next (advance s)

end Sys2Proof.Machine
end

