-- ==== Sys2Proof/Machine/TapeOps.lean ====
section
/-! DEFINITION. The four tape instructions. Spec: 41_tape_ops.md R100 to R105. -/

namespace Sys2Proof.Machine

/-- `toggle()`: `T[P] <- T[P] ^ 1` (41_tape_ops.md R107). -/
def toggleCurrent (s : State) : State := writeCurrent (currentBit s ^^^ 1) s

/-- Whether address `p` is below PTR_MIN (41_tape_ops.md R104). -/
def belowRange (c : Cfg) (p : Int) : Bool :=
  match c.ptrMin with
  | none => false
  | some m => p < m

/-- Whether address `p` is above PTR_MAX (41_tape_ops.md R105). -/
def aboveRange (c : Cfg) (p : Int) : Bool :=
  match c.ptrMax with
  | none => false
  | some m => m < p

/-- TGL_PLUS `+` (41_tape_ops.md R100). -/
def execTglPlus (s : State) : Host.Outcome State Fault Refusal := .next (advance (toggleCurrent s))

/-- TGL_MINUS `-` (41_tape_ops.md R101). -/
def execTglMinus (s : State) : Host.Outcome State Fault Refusal := .next (advance (toggleCurrent s))

/-- LEFT `<` (41_tape_ops.md R102, R104). -/
def execLeft (s : State) : Host.Outcome State Fault Refusal :=
  if belowRange s.cfg (s.ptr - 1) then .next (raiseFault .tapeRange s)
  else .next (advance (setPtr (s.ptr - 1) s))

/-- RIGHT `>` (41_tape_ops.md R103, R105). -/
def execRight (s : State) : Host.Outcome State Fault Refusal :=
  if aboveRange s.cfg (s.ptr + 1) then .next (raiseFault .tapeRange s)
  else .next (advance (setPtr (s.ptr + 1) s))

end Sys2Proof.Machine
end

