-- ==== Sys2Proof/Machine/Dispatch.lean ====
section
/-! DEFINITION. One arm per instruction (44_engine_cycle.md R143). -/

namespace Sys2Proof.Machine

def exec (i : Instr) (s : State) : Host.Outcome State Fault Refusal :=
  match i with
  | .tglPlus => Sys2Proof.Machine.execTglPlus s
  | .inBit => Sys2Proof.Machine.execInBit s
  | .tglMinus => Sys2Proof.Machine.execTglMinus s
  | .outBit => Sys2Proof.Machine.execOutBit s
  | .left => Sys2Proof.Machine.execLeft s
  | .right => Sys2Proof.Machine.execRight s
  | .jzf => Sys2Proof.Machine.execJzf s
  | .jnzb => Sys2Proof.Machine.execJnzb s

end Sys2Proof.Machine
end

