-- ==== Sys2Proof/Machine/Engine.lean ====
section
/-! DEFINITION. The engine's run states, the checks at a step boundary and the fetch, and how one instruction is placed
where the engine fetches it. Spec: 44_engine_cycle.md R140, R142, R145 to R150; 10_state.md R28. -/

namespace Sys2Proof.Machine

/-- The run states (44_engine_cycle.md R140). -/
inductive RunState where
  | running
  | halted
  | faulted
deriving DecidableEq, Repr

/-- Whether there is a run: a Program is loaded (10_state.md R28) and `START` was accepted (70_reset_and_hazards.md R212;
log 3). -/
def engineStarted (s : State) : Bool := s.ldState == .loaded && s.started

/-- The run state (10_state.md R28): Faulted iff `fault` is set, else Halted iff `ip = len`, Running iff `ip < len`. `none`
where it is not defined: nothing loaded (R28), no run begun (log 3), or `ip` above `len`, which no rule produces (R13). -/
def runState (s : State) : Option RunState :=
  if engineStarted s then
    if s.fault.isSome then some .faulted
    else if s.ip = s.len then some .halted
    else if s.ip < s.len then some .running
    else none
  else none

/-- `stop_req` as sampled at this boundary (44_engine_cycle.md R147). -/
def stopRequested (s : State) : Bool := scheduleAt s.host.stop s.steps

/-- `STEP_BUDGET = N and steps = N` (44_engine_cycle.md R146, R148). -/
def budgetMet (s : State) : Bool := s.cfg.stepBudget == some s.steps

/-- What the engine does at a step boundary (44_engine_cycle.md R148). -/
inductive BoundaryAction where
  | stay
  | raise (c : FaultCause)
  | execute
deriving DecidableEq, Repr

/-- The checks of 44_engine_cycle.md R148, in their order. Not started or Faulted: nothing happens (R149,
70_reset_and_hazards.md R212). A held IN has passed its boundary already: `stop_req` and the budget do not end a hold
(R150). -/
def boundary (s : State) : BoundaryAction :=
  if !engineStarted s then .stay
  else if s.fault.isSome then .stay
  else if s.ip = s.len then .stay
  else if s.hold.isSome then .execute
  else if stopRequested s then .raise .cancelled
  else if budgetMet s then .raise .stepBudgetExceeded
  else .execute

/-- Fetch: `prog[ip]` (44_engine_cycle.md R142); `none` only where `ip` is not below `len`. -/
def fetch (s : State) : Option Operation := s.prog[s.ip]?

/-- The smallest Program that holds an instruction, and its index there. A bracket needs its match, so it stands in `[]`
(40_loader_bracket_table.md R85); a skipped character makes the empty Program (log 9). -/
def smallestProgram : Decoded → List Operation × List (Option Nat) × Nat
  | .skip => ([], [], 0)
  | .command .jzf => ([.jumpIfZeroForward, .jumpIfNonZeroBackward], [some 1, some 0], 0)
  | .command .jnzb => ([.jumpIfZeroForward, .jumpIfNonZeroBackward], [some 1, some 0], 1)
  | .command .tglPlus => ([.toggleBit], [none], 0)
  | .command .inBit => ([.readBit], [none], 0)
  | .command .tglMinus => ([.toggleBit], [none], 0)
  | .command .outBit => ([.writeBit], [none], 0)
  | .command .left => ([.moveLeft], [none], 0)
  | .command .right => ([.moveRight], [none], 0)

/-- The host with `stop_req` not asserted at the boundary where `steps` is `n`. -/
def withoutStopAt (n : Nat) (h : HostSide) : HostSide :=
  if scheduleAt h.stop n then { h with stop := ⟨[], false⟩ } else h

/-- The configuration with no budget met at `n` steps. -/
def withoutBudgetAt (n : Nat) (c : Cfg) : Cfg :=
  if c.stepBudget = some n then { c with stepBudget := none } else c

/-- `s` with what a character decodes to loaded as the Program and the engine Running at it, so that the very next step
runs it: this stands for the host's LOAD and START (log 9). -/
def placeInstruction (d : Decoded) (s : State) : State :=
  { s with
    prog := (smallestProgram d).1, jt := (smallestProgram d).2.1, ip := (smallestProgram d).2.2,
    ldState := .loaded, started := true, fault := none, hold := none,
    host := withoutStopAt s.steps s.host, cfg := withoutBudgetAt s.steps s.cfg }

end Sys2Proof.Machine
end

