-- ==== Sys2Proof/Machine/Step.lean ====
section
/-! DEFINITION. One step of the engine. Spec: 44_engine_cycle.md R144, R148. -/

namespace Sys2Proof.Machine

/-- One step (44_engine_cycle.md R144): the boundary checks, then fetch, then the whole effect of the instruction, which
counts itself in `steps`. Where the engine does not execute, the state stays (log 10). -/
def step (s : State) : Host.Outcome State Fault Refusal :=
  match boundary s with
  | .stay => .next s
  | .raise c => .next (raiseFault c s)
  | .execute =>
    match fetch s with
    | some op => exec op.instr s
    | none => .fault .fetchOutsideStore

/-- `s` with the instruction whose bits are `w` where the next step fetches (log 9). -/
def State.withFetchWord (s : State) (nbits w : Nat) : State :=
  placeInstruction (decodeChar (firstCharOfWord nbits w)) s

end Sys2Proof.Machine
end

