-- ==== Sys2Proof/Machine/Loader.lean ====
section
/-! DEFINITION. JRES's loader: from source text to instruction store and bracket table, or a load error. Spec:
40_loader_bracket_table.md R80 to R86. -/

namespace Sys2Proof.Machine

/-- The loader's working copies during a scan (40_loader_bracket_table.md R82). `stack` has its top first. -/
structure Scan where
  prog : List Operation
  jt : List (Option Nat)
  spos : List Nat
  stack : List Nat
deriving DecidableEq, Repr

/-- The working copies before the first character. -/
def emptyScan : Scan := { prog := [], jt := [], spos := [], stack := [] }

/-- Appends operation `op`, at source position `c`, under index `|prog|`, with a NONE entry
(40_loader_bracket_table.md R82). -/
def storeOperation (op : Operation) (c : Nat) (w : Scan) : Scan :=
  { w with prog := w.prog ++ [op], jt := w.jt ++ [none], spos := w.spos ++ [c] }

/-- Links a pair both ways: `jt[i] <- k; jt[k] <- i` (40_loader_bracket_table.md R82). -/
def linkPair (i k : Nat) (jt : List (Option Nat)) : List (Option Nat) := (jt.set i (some k)).set k (some i)

/-- The bracket part of a scan step, for the operation just stored under index `k` (40_loader_bracket_table.md R82, R83). -/
def matchBracket (op : Operation) (k c : Nat) (w : Scan) : Except (LoadErrorKind × Nat) Scan :=
  match op with
  | .jumpIfZeroForward => .ok { w with stack := k :: w.stack }
  | .jumpIfNonZeroBackward =>
    match w.stack with
    | [] => .error (.unmatchedBackward, c)
    | i :: below => .ok { w with stack := below, jt := linkPair i k w.jt }
  | .toggleBit | .moveLeft | .moveRight | .readBit | .writeBit => .ok w

/-- One character of the scan, at source position `c`: skipped, refused for capacity (R86, before any bracket rule), or
stored and matched (40_loader_bracket_table.md R82). -/
def scanChar (progMax : Option Nat) (c : Nat) (ch : Byte) (w : Scan) : Except (LoadErrorKind × Nat) Scan :=
  match decodeChar ch with
  | .skip => .ok w
  | .command i =>
    if progMax = some w.prog.length then .error (.programTooLong, c)
    else matchBracket i.operation w.prog.length c (storeOperation i.operation c w)

/-- The scan from source position `c` on, left to right, up to the first error (40_loader_bracket_table.md R81, R82). -/
def scanText (progMax : Option Nat) : Nat → List Byte → Scan → Except (LoadErrorKind × Nat) Scan
  | _, [], w => .ok w
  | c, ch :: rest, w =>
    match scanChar progMax c ch w with
    | .error e => .error e
    | .ok w' => scanText progMax (c + 1) rest w'

/-- `Load(src)` (40_loader_bracket_table.md R82): the Program, or the kind and position of the one error reported (R83,
R84, R86). -/
def loadText (progMax : Option Nat) (src : List Byte) :
    Except (LoadErrorKind × Nat) (List Operation × List (Option Nat)) :=
  match scanText progMax 0 src emptyScan with
  | .error e => .error e
  | .ok w =>
    match w.stack with
    | [] => .ok (w.prog, w.jt)
    | top :: _ => .error (.unmatchedForward, w.spos[top]?.getD 0)

end Sys2Proof.Machine
end

