-- ==== Sys2Proof/Machine/HostOps.lean ====
section
/-! DEFINITION. What the host does to BFX and reads from it: LOAD, START, the configuration, the status. Spec:
45_host_interface.md R160 to R169; 60_exceptions.md R181, R183, R185. -/

namespace Sys2Proof.Machine

/-- A load that produced a Program: `prog`, `len`, `jt` are replaced and `ld_state <- Loaded` (45_host_interface.md
R161). No run of it has begun (log 3). -/
def loadSucceeds (prog : List Operation) (jt : List (Option Nat)) (s : State) : State :=
  { s with prog := prog, jt := jt, ldState := .loaded, started := false }

/-- A load that failed: `ld_state <- LoadFailed`, `err_kind`, `err_pos` set (45_host_interface.md R161, 60_exceptions.md
R183). The stores hold any value (93_implementation_defined.md U18; log 8). -/
def loadFails (kind : LoadErrorKind) (pos : Nat) (s : State) : State :=
  { s with
    prog := Config.progAfterFailedLoad s.freeCount, jt := Config.jumpTableAfterFailedLoad s.freeCount,
    freeCount := s.freeCount + 1, ldState := .loadFailed, errKind := kind, errPos := pos, started := false }

/-- `LOAD(src)` (45_host_interface.md R161). While the engine is Running it has no meaning (70_reset_and_hazards.md
R215). -/
def load (src : List Byte) (s : State) : Host.Outcome State Fault Refusal :=
  if runState s = some .running then .refused .loadWhileRunning
  else
    match loadText s.cfg.progMax src with
    | .ok (prog, jt) => .next (loadSucceeds prog jt s)
    | .error (kind, pos) => .next (loadFails kind pos s)

/-- `START` with the host's streams for the run (45_host_interface.md R162, R167, R169): accepted only when Loaded,
and then it resets and the engine runs; otherwise refused with no effect (93_implementation_defined.md U12).
DESIGN CHOICE: it looks at no part of `cfg`, so a run under an illegal `cfg` (log 17), or of a Program longer than the
PROG_MAX now in force (log 18), begins like any other. -/
def start (h : HostSide) (s : State) : State :=
  if s.ldState = .loaded then { resetRun s with host := h, started := true } else s

/-- The host sets `cfg`, before `START` (45_host_interface.md R160, R168). Not while Running (70_reset_and_hazards.md
R215), and only a legal one (00_scope.md R6). DESIGN CHOICE (log 18): PROG_MAX is not compared with the `len` of a
Program loaded before, so a `cfg` set after LOAD, or between two runs, may have PROG_MAX below `len`, and START then
runs the longer Program. DESIGN CHOICE (log 12): nor are PTR_MIN and PTR_MAX compared with the `P` of a run that is
over. -/
def setCfg (c : Cfg) (s : State) : Host.Outcome State Fault Refusal :=
  if runState s = some .running then .refused .cfgWhileRunning
  else if c.Legal then .next { s with cfg := c }
  else .refused .cfgIllegal

/-! ## Status -/

/-- The cause code of a RuntimeFault (60_exceptions.md R184). -/
def faultCode : FaultCause → Nat
  | .outputUnwritable => 1
  | .stepBudgetExceeded => 2
  | .cancelled => 3
  | .tapeRange => 4
  | .programTooLong => 5

/-- What a run or a load ended with (44_engine_cycle.md R152): its class is the `exit_status`. -/
inductive RunResult where
  | halted
  | structuralError (kind : LoadErrorKind) (pos : Nat)
  | runtimeFault (cause : FaultCause)
deriving DecidableEq, Repr

/-- How a failed load is reported: unmatched brackets as StructuralErrors (60_exceptions.md R181), ProgramTooLong in the
RuntimeFault class (40_loader_bracket_table.md R86). -/
def loadFailure (kind : LoadErrorKind) (pos : Nat) : RunResult :=
  match kind with
  | .unmatchedBackward => .structuralError .unmatchedBackward pos
  | .unmatchedForward => .structuralError .unmatchedForward pos
  | .programTooLong => .runtimeFault .programTooLong

/-- The result the host can read; `none` while the engine is Running or before any `LOAD` (60_exceptions.md R185), and
for a loaded Program of which no run has begun (log 3). -/
def runResult (s : State) : Option RunResult :=
  match s.ldState with
  | .unloaded => none
  | .loadFailed => some (loadFailure s.errKind s.errPos)
  | .loaded =>
    match runState s, s.fault with
    | some .halted, _ => some .halted
    | some .faulted, some c => some (.runtimeFault c)
    | some .faulted, none => none
    | some .running, _ => none
    | none, _ => none

/-- The code of a structural error kind (60_exceptions.md R181); ProgramTooLong has the RuntimeFault code (R184). -/
def loadErrorCode : LoadErrorKind → Nat
  | .unmatchedBackward => 1
  | .unmatchedForward => 2
  | .programTooLong => 5

/-- The numbers of a result: `exit_status` and cause code (60_exceptions.md R185). -/
def resultCodes : RunResult → Nat × Nat
  | .halted => (0, 0)
  | .structuralError kind _ => (1, loadErrorCode kind)
  | .runtimeFault cause => (2, faultCode cause)

/-- `exit_status` and the cause code, where there is an exit status (60_exceptions.md R185). -/
def exitStatus (s : State) : Option (Nat × Nat) := (runResult s).map resultCodes

/-- All that the host can read of BFX (45_host_interface.md R166). -/
structure HostStatus where
  ldState : LoadState
  errKind : LoadErrorKind
  errPos : Nat
  runState : Option RunState
  fault : Option FaultCause
  exitStatus : Option (Nat × Nat)
deriving DecidableEq, Repr

/-- The status read (45_host_interface.md R166): it shows no tape, pointer, instruction pointer or partial byte. -/
def hostStatus (s : State) : HostStatus :=
  { ldState := s.ldState, errKind := s.errKind, errPos := s.errPos, runState := runState s, fault := s.fault,
    exitStatus := exitStatus s }

end Sys2Proof.Machine
end

