-- ==== Sys2Proof/Machine/Invoke.lean ====
section
/-! DEFINITION. The whole invocation. Spec: 44_engine_cycle.md R152, R154; 45_host_interface.md R167. -/

namespace Sys2Proof.Machine

/-- `n` steps, up to the first that has no next state. -/
def runSteps : Nat → State → Host.Outcome State Fault Refusal
  | 0, s => .next s
  | n + 1, s =>
    match step s with
    | .next t => runSteps n t
    | .fault r => .fault r
    | .refused r => .refused r

/-- `Run(src, inp, cfg, stop)` from power-on (44_engine_cycle.md R152), the input, the stop request and the output's
answers being the host's side `h`. At most `fuel` steps (R154): `none` where the run is not over by then.
DESIGN CHOICE (log 17): `c` is put in place without the check of `setCfg`, so the invocation under a `c` that 00_scope.md R6
calls not legal (PTR_MIN above 0 or PTR_MAX below 0), of which the spec says nothing, runs by the same rules. -/
def invoke (fuel : Nat) (c : Cfg) (src : List Byte) (h : HostSide) : Option (List Byte × RunResult) :=
  match load src { State.reset with cfg := c } with
  | .next loaded =>
    match runSteps fuel (start h loaded) with
    | .next t => (runResult t).map (t.out, ·)
    | .fault _ => none
    | .refused _ => none
  | .fault _ => none
  | .refused _ => none

end Sys2Proof.Machine
end

