-- ==== Sys2Proof/Safety.lean ====
section
/-! DEFINITION. What claims are stated in: the invariant of a legal machine, the frames an instruction leaves unchanged,
the counters of stream transactions, and balanced source texts. -/

namespace Sys2Proof

/-- The eight command codes, written out from the table of 30_encoding.md R62. -/
def commandCodes : List Byte := [0x2B, 0x2C, 0x2D, 0x2E, 0x3C, 0x3E, 0x5B, 0x5D]

/-- How many `[` a text holds. -/
def openCount (src : List Byte) : Nat := src.count 0x5B

/-- How many `]` a text holds. -/
def closeCount (src : List Byte) : Nat := src.count 0x5D

/-- How many command characters a text holds. -/
def commandCount (src : List Byte) : Nat := src.countP (commandCodes.contains ·)

/-- "Scanning left to right, the count of `]` never exceeds the count of `[`" (40_loader_bracket_table.md R90), over the
first `n` characters. -/
abbrev NeverOverclosed (n : Nat) (src : List Byte) : Prop :=
  ∀ k ≤ n, closeCount (src.take k) ≤ openCount (src.take k)

/-- A balanced text (40_loader_bracket_table.md R90): never overclosed, "and the two counts are equal at the end". -/
abbrev BalancedText (src : List Byte) : Prop :=
  NeverOverclosed src.length src ∧ openCount src = closeCount src

/-- Whether `n` commands fit the capacity PROG_MAX (40_loader_bracket_table.md R86). -/
abbrev FitsProgMax (progMax : Option Nat) (n : Nat) : Prop := ∀ m ∈ progMax, n ≤ m

namespace Machine

/-! ## Frames -/

/-- The Program, the load status, the configuration and the host's side are as before. -/
structure SameProgram (s t : State) : Prop where
  prog : t.prog = s.prog
  jt : t.jt = s.jt
  ldState : t.ldState = s.ldState
  errKind : t.errKind = s.errKind
  errPos : t.errPos = s.errPos
  cfg : t.cfg = s.cfg
  started : t.started = s.started
  host : t.host = s.host
  freeCount : t.freeCount = s.freeCount

/-- The run's state is as before: tape, pointer, `ip`, `steps`, `fault`, both halves of BSIO and the output. -/
structure SameRun (s t : State) : Prop where
  tape : t.tape = s.tape
  ptr : t.ptr = s.ptr
  ip : t.ip = s.ip
  steps : t.steps = s.steps
  fault : t.fault = s.fault
  inBuf : t.inBuf = s.inBuf
  inRem : t.inRem = s.inRem
  inCur : t.inCur = s.inCur
  inEos : t.inEos = s.inEos
  outBuf : t.outBuf = s.outBuf
  outCnt : t.outCnt = s.outCnt
  outCur : t.outCur = s.outCur
  out : t.out = s.out

/-- The `InPull`s answered so far: one for each byte taken, and the one that found the end. -/
def pullsAnswered (s : State) : Nat := s.inCur + (if s.inEos then 1 else 0)

/-- The stream transactions completed so far (42_io_ops.md R117). -/
def transactions (s : State) : Nat := pullsAnswered s + s.outCur

/-- The number of input bits delivered since reset, while input lasts: `8 * in_cur - in_rem` (42_io_ops.md R111). -/
def bitsDelivered (s : State) : Nat := 8 * s.inCur - s.inRem

/-- The number of bits written since reset: `8 * out_cur + out_cnt` (10_state.md R19). -/
def bitsWritten (s : State) : Nat := 8 * s.outCur + s.outCnt

/-! ## The invariant -/

/-- The pointer is in the implemented range: `PTR_MIN <= P <= PTR_MAX` (10_state.md R12, 41_tape_ops.md R105). -/
abbrev PtrInRange (s : State) : Prop := (∀ m ∈ s.cfg.ptrMin, m ≤ s.ptr) ∧ (∀ m ∈ s.cfg.ptrMax, s.ptr ≤ m)

/-- What holds of a started engine. -/
structure RunInv (s : State) : Prop where
  /-- 10_state.md R13. -/
  ip_le : s.ip ≤ s.len
  /-- 10_state.md R12. -/
  ptr_range : PtrInRange s
  /-- 10_state.md R16: `in_rem` is 0..7 between instructions. -/
  in_rem_le : s.inRem ≤ 7
  /-- 20_memory.md R43: the cursor stays within the input. -/
  in_cur_le : s.inCur ≤ s.host.inp.length
  /-- 10_state.md R16: `in_buf` is the most recent byte taken. -/
  in_buf_last : 0 < s.inRem → 0 < s.inCur ∧ s.host.inp[s.inCur - 1]? = some s.inBuf
  /-- 10_state.md R17: `in_eos = 1` implies `in_cur = |inp|`; 42_io_ops.md R113: only at a byte boundary. -/
  in_eos_end : s.inEos = true → s.inCur = s.host.inp.length ∧ s.inRem = 0
  /-- 10_state.md R18: `out_cnt` is 0..7. -/
  out_cnt_le : s.outCnt ≤ 7
  /-- 10_state.md R18: the unfilled bits of `out_buf` are 0. -/
  out_buf_clear : ∀ k < 8, s.outCnt ≤ k → s.outBuf.getLsbD k = false
  /-- 10_state.md R19: `out_cur` counts the bytes handed over. -/
  out_cur_len : s.out.length = s.outCur
  /-- 60_exceptions.md R187: ProgramTooLong is raised in `LOAD`, never in a step. -/
  fault_step : s.fault ≠ some .programTooLong
  /-- 44_engine_cycle.md R150: a hold is inside an IN that needs a new byte. -/
  hold_in : s.hold ≠ none →
    s.fault = none ∧ s.prog[s.ip]? = some .readBit ∧ s.inRem = 0 ∧ s.inEos = false
  /-- 44_engine_cycle.md R146: at most N instructions execute, and one that is held is one of them. -/
  steps_le : ∀ n ∈ s.cfg.stepBudget, s.steps ≤ n ∧ (s.hold ≠ none → s.steps < n)

/-- The invariant of a legal machine. The run's part is claimed of a started engine only: between `LOAD` and `START` the
run's state is stale (70_reset_and_hazards.md R212). -/
structure Inv (s : State) : Prop where
  tape_canonical : tapeWf s.tape
  cfg_legal : s.cfg.Legal
  /-- 40_loader_bracket_table.md R85. -/
  program_ok : s.ldState = .loaded → ProgramOk s.prog s.jt
  run_inv : engineStarted s = true → RunInv s

end Machine

end Sys2Proof
end

