-- ==== Sys2Proof/Certificates/Slice0/Obligations.lean ====
section
/-! DEFINITION. The statements for the provers, in the order of the spec's files: encoding, tape, I/O, jumps, engine, loader,
host. -/

open Sys2Proof Sys2Proof.Machine

/-! ## Encoding -/

/-- 30_encoding.md R61, R62: the eight codes decode to the eight symbols, every other code is skipped, and the eight symbols
stand for the seven operations. (The codes are the spec's own, from general knowledge: log 13.) -/
def Obligations.SymbolCodesDecode : Prop :=
  (decodeChar 0x2B = .command .tglPlus ∧ decodeChar 0x2D = .command .tglMinus ∧
    decodeChar 0x3C = .command .left ∧ decodeChar 0x3E = .command .right ∧
    decodeChar 0x2C = .command .inBit ∧ decodeChar 0x2E = .command .outBit ∧
    decodeChar 0x5B = .command .jzf ∧ decodeChar 0x5D = .command .jnzb) ∧
  (∀ c : Byte, c ∉ commandCodes → decodeChar c = .skip) ∧
  (Instr.operation .tglPlus = .toggleBit ∧ Instr.operation .tglMinus = .toggleBit ∧
    Instr.operation .left = .moveLeft ∧ Instr.operation .right = .moveRight ∧
    Instr.operation .inBit = .readBit ∧ Instr.operation .outBit = .writeBit ∧
    Instr.operation .jzf = .jumpIfZeroForward ∧ Instr.operation .jnzb = .jumpIfNonZeroBackward)

/-- 30_encoding.md R62, R64: an instruction is one character, and a character decodes to an instruction exactly when it is
that instruction's code. -/
def Obligations.DecodeAndCharacterCodeAgree : Prop :=
  (∀ i : Instr, encode i = [charCode i]) ∧
  (∀ (c : Byte) (i : Instr), decodeChar c = .command i ↔ c = charCode i)

/-- 30_encoding.md R62, R63, R67, R69: a text that spells a list of instructions, with any non-command characters
between, before and after their codes, decodes to exactly that list. -/
def Obligations.CommentedTextDecodesToItsInstructions : Prop :=
  ∀ (is : List Instr) (text : List Byte),
    text.filter (fun c => decide (c ∈ commandCodes)) = is.flatMap encode → decodeText text = is

/-- 30_encoding.md R66: the internal opcodes of the seven operations, read back; 111 stands for none. -/
def Obligations.StoredOpcodesReadBack : Prop :=
  (Operation.iop .toggleBit = 0b000 ∧ Operation.iop .moveLeft = 0b001 ∧ Operation.iop .moveRight = 0b010 ∧
    Operation.iop .readBit = 0b011 ∧ Operation.iop .writeBit = 0b100 ∧ Operation.iop .jumpIfZeroForward = 0b101 ∧
    Operation.iop .jumpIfNonZeroBackward = 0b110) ∧
  (∀ op : Operation, operationOfIop op.iop = some op) ∧ operationOfIop 0b111 = none

/-- 30_encoding.md R63: a character whose code is not one of the eight leaves the loader's working copies (store, table,
positions, stack) as they are, and is never an error. -/
def Obligations.NonCommandCharacterIsSkipped : Prop :=
  ∀ (progMax : Option Nat) (c : Nat) (ch : Byte) (w : Scan),
    ch ∉ commandCodes → scanChar progMax c ch w = .ok w

/-! ## Tape -/

/-- 10_state.md R11, 20_memory.md R51: a read returns the last value written at its address, a write changes no other
address, a tape nothing has written reads 0, and a write keeps the canonical form (the form is the model's: log 1). -/
def Obligations.TapeReadsTheLastWrite : Prop :=
  (∀ a : Int, readTape [] a = 0) ∧
  ∀ (t : Tape) (a : Int) (v : Bit), tapeWf t →
    (∀ b : Int, readTape (writeTape t a v) b = if b = a then v else readTape t b) ∧ tapeWf (writeTape t a v)

/-- The model's canonical form (log 1): two canonical tapes that read alike at every address are equal. -/
def Obligations.CanonicalTapesThatReadAlikeAreEqual : Prop :=
  ∀ t u : Tape, tapeWf t → tapeWf u → (∀ a : Int, readTape t a = readTape u a) → t = u

/-- 41_tape_ops.md R100, R101: both toggles flip the current bit, advance `ip` and count a step; every other bit, and
everything else, is unchanged. Their codes and their one internal opcode. -/
def Obligations.TogglesFlipOnlyTheCurrentBit : Prop :=
  (charCode .tglPlus = 0x2B ∧ (Instr.operation .tglPlus).iop = 0b000 ∧
    charCode .tglMinus = 0x2D ∧ (Instr.operation .tglMinus).iop = 0b000) ∧
  ∀ (i : Instr) (s : State), i = .tglPlus ∨ i = .tglMinus → tapeWf s.tape →
    ∃ t : State, exec i s = .next t ∧
      (∀ a : Int, readTape t.tape a =
        if a = s.ptr then readTape s.tape s.ptr ^^^ 1 else readTape s.tape a) ∧
      t = { s with tape := t.tape, ip := s.ip + 1, steps := s.steps + 1 }

/-- 41_tape_ops.md R106, second bullet: an even number of toggles at one position restores the whole state of the tape, an
odd number is one toggle. -/
def Obligations.RepeatedTogglesKeepParity : Prop :=
  ∀ (s : State) (n : Nat), tapeWf s.tape →
    toggleCurrent^[n] s = if n % 2 = 0 then s else toggleCurrent s

/-- 41_tape_ops.md R102, R104: LEFT moves the pointer down by exactly 1 and changes nothing else but `ip` and `steps`; where
that would go below PTR_MIN it raises TapeRange and changes nothing but `fault`. -/
def Obligations.LeftMovesDownOrRaisesTapeRange : Prop :=
  (charCode .left = 0x3C ∧ (Instr.operation .left).iop = 0b001) ∧
  ∀ s : State,
    ((∀ m ∈ s.cfg.ptrMin, m ≤ s.ptr - 1) →
      exec .left s = .next { s with ptr := s.ptr - 1, ip := s.ip + 1, steps := s.steps + 1 }) ∧
    ((∃ m ∈ s.cfg.ptrMin, s.ptr - 1 < m) → exec .left s = .next { s with fault := some .tapeRange })

/-- 41_tape_ops.md R103, R105: RIGHT moves the pointer up by exactly 1 and changes nothing else but `ip` and `steps`; where
that would go above PTR_MAX it raises TapeRange and changes nothing but `fault`. -/
def Obligations.RightMovesUpOrRaisesTapeRange : Prop :=
  (charCode .right = 0x3E ∧ (Instr.operation .right).iop = 0b010) ∧
  ∀ s : State,
    ((∀ m ∈ s.cfg.ptrMax, s.ptr + 1 ≤ m) →
      exec .right s = .next { s with ptr := s.ptr + 1, ip := s.ip + 1, steps := s.steps + 1 }) ∧
    ((∃ m ∈ s.cfg.ptrMax, m < s.ptr + 1) → exec .right s = .next { s with fault := some .tapeRange })

/-! ## Bit-serial I/O -/

/-- 42_io_ops.md R111, R112: with bits of the current byte left, IN stores bit `8 - in_rem` of `in_buf` at the pointer,
asks the host for nothing, and changes only `in_rem`, `ip` and `steps` besides. -/
def Obligations.InDeliversTheNextBufferedBit : Prop :=
  ∀ s : State, tapeWf s.tape → 1 ≤ s.inRem → s.inRem ≤ 7 →
    ∃ t : State, exec .inBit s = .next t ∧
      (∀ a : Int, readTape t.tape a =
        if a = s.ptr then (if s.inBuf.getLsbD (8 - s.inRem) then 1 else 0) else readTape s.tape a) ∧
      t = { s with tape := t.tape, inRem := s.inRem - 1, ip := s.ip + 1, steps := s.steps + 1 }

/-- 42_io_ops.md R111, R112: with the current byte exhausted and input left, IN pulls the next byte when the host answers,
stores its bit 0 at the pointer and keeps the other seven; nothing else changes but `ip` and `steps`. -/
def Obligations.InPullsTheNextByteWhenExhausted : Prop :=
  ∀ (s : State) (b : Byte), tapeWf s.tape → s.inRem = 0 → s.inEos = false →
    hostAnswersPull s = true → s.host.inp[s.inCur]? = some b →
    ∃ t : State, exec .inBit s = .next t ∧
      (∀ a : Int, readTape t.tape a =
        if a = s.ptr then (if b.getLsbD 0 then 1 else 0) else readTape s.tape a) ∧
      t = { s with tape := t.tape, inBuf := b, inRem := 7, inCur := s.inCur + 1, hold := none,
                   ip := s.ip + 1, steps := s.steps + 1 }

/-- 42_io_ops.md R113, 60_exceptions.md R186: at end of input (already known, or answered now) IN completes and stores
EOF_BIT; `in_rem` stays 0, `in_cur` stays, `in_eos` is 1, and once it is 1 the host is not asked. -/
def Obligations.InDeliversEofBitAtEndOfInput : Prop :=
  ∀ s : State, tapeWf s.tape → s.inRem = 0 →
    (s.inEos = true ∨ (hostAnswersPull s = true ∧ s.host.inp[s.inCur]? = none)) →
    ∃ t : State, exec .inBit s = .next t ∧
      (∀ a : Int, readTape t.tape a = if a = s.ptr then s.cfg.eofBit else readTape s.tape a) ∧
      t = { s with tape := t.tape, inEos := true, hold := if s.inEos then s.hold else none,
                   ip := s.ip + 1, steps := s.steps + 1 }

/-- 44_engine_cycle.md R150: while the host has not answered, an IN that needs a byte changes nothing of BFX (`hold` is the
model's record of the wait: log 5); and a held IN is carried on by the next step whatever `stop_req` and the budget
are. -/
def Obligations.InHoldsUntilTheHostAnswers : Prop :=
  (∀ s : State, s.inRem = 0 → s.inEos = false → hostAnswersPull s = false →
    exec .inBit s = .next { s with hold := some (s.hold.getD 0 + 1) }) ∧
  (∀ s : State, s.ldState = .loaded → s.started = true → s.fault = none → s.hold ≠ none →
    s.prog[s.ip]? = some .readBit → step s = exec .inBit s)

/-- 42_io_ops.md R111: in a started engine that meets the invariant, the IN after `k` delivered bits, while input lasts and
once the host answers, stores bit `k mod 8` of input byte `k / 8`, and `k + 1` bits are then delivered. -/
def Obligations.DeliveredBitsFollowTheInput : Prop :=
  ∀ (s : State) (b : Byte), tapeWf s.tape → RunInv s →
    (s.inRem = 0 → hostAnswersPull s = true) → s.host.inp[bitsDelivered s / 8]? = some b →
    ∃ t : State, exec .inBit s = .next t ∧
      readTape t.tape s.ptr = (if b.getLsbD (bitsDelivered s % 8) then 1 else 0) ∧
      bitsDelivered t = bitsDelivered s + 1

/-- 42_io_ops.md R114, R115: OUT enters the current bit at `out_buf[out_cnt]`; the eighth bit hands the byte to the host in
the same instruction, which clears the packer if it is taken and raises OutputUnwritable, changing nothing but
`fault`, if it is refused. The tape, the pointer and the unpacker are unchanged. -/
def Obligations.OutPacksPushesOrRaisesOutputUnwritable : Prop :=
  (charCode .outBit = 0x2E ∧ (Instr.operation .outBit).iop = 0b100) ∧
  ∀ (s : State) (w : Byte),
    (∀ k < 8, w.getLsbD k =
      if k = s.outCnt then decide (readTape s.tape s.ptr = 1) else s.outBuf.getLsbD k) →
    (s.outCnt < 7 →
      exec .outBit s = .next { s with outBuf := w, outCnt := s.outCnt + 1, ip := s.ip + 1, steps := s.steps + 1 }) ∧
    (s.outCnt = 7 → outPush w s = .ok →
      exec .outBit s = .next { s with outBuf := 0x00, outCnt := 0, outCur := s.outCur + 1, out := s.out ++ [w],
                                      ip := s.ip + 1, steps := s.steps + 1 }) ∧
    (s.outCnt = 7 → outPush w s = .fail → exec .outBit s = .next { s with fault := some .outputUnwritable })

/-- 42_io_ops.md R114, 20_memory.md R44: from an empty packer, writing the bits 0 to 7 of a byte in order, with the push
taken, emits exactly that byte and empties the packer. -/
def Obligations.EightWrittenBitsEmitTheirByte : Prop :=
  ∀ (s : State) (b : Byte), s.outBuf = 0x00 → s.outCnt = 0 → outPush b s = .ok →
    (List.range 8).foldlM (fun u k => writeBit (bitOf b k) u) s = some (pushByte b s)

/-- 10_state.md R19: `8 * out_cur + out_cnt` grows by 1 with every OUT that completes and with no other instruction. -/
def Obligations.WrittenBitsCountCompletedOuts : Prop :=
  ∀ (i : Instr) (s t : State), s.outCnt ≤ 7 → exec i s = .next t →
    bitsWritten t = bitsWritten s + (if i = .outBit ∧ t.steps = s.steps + 1 then 1 else 0)

/-! ## Jumps -/

/-- 43_jump_ops.md R130: JZF jumps past its match when the current bit is 0, and otherwise advances by 1; nothing else
changes but `steps`. -/
def Obligations.JzfJumpsPastItsMatchOnZero : Prop :=
  (charCode .jzf = 0x5B ∧ (Instr.operation .jzf).iop = 0b101) ∧
  ∀ s : State,
    (∀ j ∈ jumpAt s.jt s.ip, readTape s.tape s.ptr = 0 →
      exec .jzf s = .next { s with ip := j + 1, steps := s.steps + 1 }) ∧
    (readTape s.tape s.ptr ≠ 0 → exec .jzf s = .next { s with ip := s.ip + 1, steps := s.steps + 1 })

/-- 43_jump_ops.md R131: JNZB jumps to the instruction after its matching `[` when the current bit is nonzero, and otherwise
advances by 1; nothing else changes but `steps`. -/
def Obligations.JnzbJumpsIntoItsLoopOnNonzero : Prop :=
  (charCode .jnzb = 0x5D ∧ (Instr.operation .jnzb).iop = 0b110) ∧
  ∀ s : State,
    (∀ j ∈ jumpAt s.jt s.ip, readTape s.tape s.ptr ≠ 0 →
      exec .jnzb s = .next { s with ip := j + 1, steps := s.steps + 1 }) ∧
    (readTape s.tape s.ptr = 0 → exec .jnzb s = .next { s with ip := s.ip + 1, steps := s.steps + 1 })

/-- 43_jump_ops.md R132: in a well-formed Program, the bracket at `ip` completes and leaves `0 < ip <= len`. -/
def Obligations.JumpTargetsAreInRange : Prop :=
  ∀ s : State, ProgramOk s.prog s.jt →
    ∀ i : Instr, i = .jzf ∨ i = .jnzb → s.prog[s.ip]? = some i.operation →
      ∃ t : State, exec i s = .next t ∧ 0 < t.ip ∧ t.ip ≤ t.len

/-- The model's own stops (log 11), at states the spec rules out: a taken bracket whose table entry is NONE (10_state.md R15:
"never read") stops as noJumpTarget, and a started engine whose `ip` is above `len` (10_state.md R13), with no check
pending, stops as fetchOutsideStore. -/
def Obligations.RuledOutStatesStopByName : Prop :=
  (∀ s : State, jumpAt s.jt s.ip = none →
    (readTape s.tape s.ptr = 0 → exec .jzf s = .fault .noJumpTarget) ∧
    (readTape s.tape s.ptr ≠ 0 → exec .jnzb s = .fault .noJumpTarget)) ∧
  (∀ s : State, s.ldState = .loaded → s.started = true → s.fault = none → s.len < s.ip →
    stopRequested s = false → s.cfg.stepBudget ≠ some s.steps → step s = .fault .fetchOutsideStore)

/-! ## Engine -/

/-- 44_engine_cycle.md R142, R143, R144: where a started engine is Running and no boundary check applies, one step is the
whole effect of the fetched instruction (which counts itself in `steps`), for every symbol that stands for the fetched
operation. -/
def Obligations.StepRunsTheFetchedInstruction : Prop :=
  ∀ (s : State) (i : Instr), s.ldState = .loaded → s.started = true → s.fault = none →
    s.hold = none → stopRequested s = false → s.cfg.stepBudget ≠ some s.steps →
    s.prog[s.ip]? = some i.operation → step s = exec i s

/-- 44_engine_cycle.md R148: the checks at a step boundary, in their order: halt, stop request, budget, execution. -/
def Obligations.BoundaryChecksInOrder : Prop :=
  ∀ s : State, s.ldState = .loaded → s.started = true → s.fault = none → s.hold = none →
    (s.ip = s.len → step s = .next s) ∧
    (s.ip < s.len → stopRequested s = true → step s = .next { s with fault := some .cancelled }) ∧
    (s.ip < s.len → stopRequested s = false → s.cfg.stepBudget = some s.steps →
      step s = .next { s with fault := some .stepBudgetExceeded }) ∧
    (∀ op ∈ s.prog[s.ip]?, stopRequested s = false → s.cfg.stepBudget ≠ some s.steps →
      step s = exec op.instr s)

/-- 44_engine_cycle.md R149: a Faulted engine takes no step: no state changes. -/
def Obligations.FaultedEngineStaysUnchanged : Prop :=
  ∀ s : State, s.fault ≠ none → step s = .next s

/-- 70_reset_and_hazards.md R212, by the model's reading (log 3): without a loaded Program and an accepted START since, the
engine takes no step: no state changes. -/
def Obligations.UnstartedEngineStaysUnchanged : Prop :=
  ∀ s : State, s.ldState ≠ .loaded ∨ s.started = false → step s = .next s

/-- 60_exceptions.md R187, R189: a step that writes `fault` writes it from none, changes nothing else, and leaves the engine
Faulted. -/
def Obligations.FaultEntryChangesOnlyFault : Prop :=
  ∀ s t : State, step s = .next t → t.fault ≠ s.fault →
    s.fault = none ∧ t = { s with fault := t.fault } ∧ runState t = some .faulted

/-- 44_engine_cycle.md R144: a step stays, enters a fault, waits in a hold, or completes one instruction; and one that
completes counts 1 step, writes no tape bit but the current one, changes `P` by at most 1 and completes at most one
stream transaction. -/
def Obligations.StepEffectIsBounded : Prop :=
  ∀ s t : State, tapeWf s.tape → step s = .next t →
    t = s ∨ (∃ c : FaultCause, t = { s with fault := some c }) ∨ (∃ k : Nat, t = { s with hold := some k }) ∨
      (t.steps = s.steps + 1 ∧ t.fault = s.fault ∧
        (∀ a : Int, a ≠ s.ptr → readTape t.tape a = readTape s.tape a) ∧
        (t.ptr - s.ptr).natAbs ≤ 1 ∧
        transactions s ≤ transactions t ∧ transactions t ≤ transactions s + 1)

/-- 10_state.md R14, R15, R23, 20_memory.md R54: no step changes the instruction store, the bracket table, the load status,
the configuration or the host's side. -/
def Obligations.StepsNeverWriteTheProgram : Prop :=
  ∀ s t : State, step s = .next t → SameProgram s t

/-- 60_exceptions.md R184, R191, R192: which fault an instruction can raise: the moves TapeRange, OUT OutputUnwritable, the
others none. -/
def Obligations.InstructionFaultsAreTheListedOnes : Prop :=
  ∀ (i : Instr) (s t : State), exec i s = .next t →
    t.fault = s.fault ∨
    ((i = .left ∨ i = .right) ∧ t.fault = some .tapeRange) ∨
    (i = .outBit ∧ t.fault = some .outputUnwritable)

/-- 10_state.md R17, 42_io_ops.md R117, 45_host_interface.md R164: no step takes back an emitted byte or rewinds the input,
and end of stream stays known. -/
def Obligations.StreamsAreNeverRewound : Prop :=
  ∀ s t : State, step s = .next t →
    s.out <+: t.out ∧ s.inCur ≤ t.inCur ∧ s.outCur ≤ t.outCur ∧ (s.inEos = true → t.inEos = true)

/-- The invariant holds at power-on. -/
def Obligations.PowerOnMeetsTheInvariant : Prop := Inv State.reset

/-- Every step keeps the invariant: a canonical tape, a legal configuration, a well-formed Program, and of a started engine
`ip <= len`, `PTR_MIN <= P <= PTR_MAX`, the ranges and contents of both halves of BSIO, and the budget. -/
def Obligations.StepKeepsTheInvariant : Prop :=
  ∀ s t : State, Inv s → step s = .next t → Inv t

/-- 44_engine_cycle.md R142, 60_exceptions.md R192: from a state that meets the invariant a step always answers a next state:
no fetch and no bracket is ever undefined. -/
def Obligations.LegalMachineAlwaysStepsOn : Prop :=
  ∀ s : State, Inv s → ∃ t : State, step s = .next t

/-- 44_engine_cycle.md R146: with STEP_BUDGET = N, at most N instructions execute in a run, whatever the Program and the
host. (A Program that is not well formed, or an illegal configuration, is no run of the spec's: there this is the model's
choice, logs 11 and 17.) -/
def Obligations.BudgetBoundsExecutedInstructions : Prop :=
  ∀ (s t : State) (h : HostSide) (n budget : Nat), s.ldState = .loaded → s.cfg.stepBudget = some budget →
    runSteps n (start h s) = .next t → t.steps ≤ budget

/-- 44_engine_cycle.md R146, R154: with STEP_BUDGET = N and a host that answers every pull at once, a run of a well-formed
Program is over within N + 1 steps. -/
def Obligations.BudgetedRunEnds : Prop :=
  ∀ (s : State) (h : HostSide) (budget : Nat), s.ldState = .loaded → ProgramOk s.prog s.jt →
    s.cfg.Legal → s.cfg.stepBudget = some budget → (∀ k : Nat, scheduleAt h.inDelay k = some 0) →
    ∃ t : State, runSteps (budget + 1) (start h s) = .next t ∧
      (runState t = some .halted ∨ runState t = some .faulted)

/-! ## Loader -/

/-- 40_loader_bracket_table.md R81: a loaded store holds the operations of the text's commands, in source order, so `len` is
the number of command characters. -/
def Obligations.LoadedStoreIsTheTextsCommands : Prop :=
  ∀ (progMax : Option Nat) (src : List Byte) (prog : List Operation) (jt : List (Option Nat)),
    loadText progMax src = .ok (prog, jt) →
    prog = (decodeText src).map Instr.operation ∧ prog.length = commandCount src

/-- 40_loader_bracket_table.md R85: every Program the loader produces meets the invariants 1 to 6. -/
def Obligations.LoadedProgramIsWellFormed : Prop :=
  ∀ (progMax : Option Nat) (src : List Byte) (prog : List Operation) (jt : List (Option Nat)),
    loadText progMax src = .ok (prog, jt) → ProgramOk prog jt

/-- 40_loader_bracket_table.md R90, R86: a text loads exactly when its brackets balance and its commands fit PROG_MAX. -/
def Obligations.TextLoadsIffBalancedAndFitting : Prop :=
  ∀ (progMax : Option Nat) (src : List Byte),
    (∃ p : List Operation × List (Option Nat), loadText progMax src = .ok p) ↔
      BalancedText src ∧ FitsProgMax progMax (commandCount src)

/-- 40_loader_bracket_table.md R83: UnmatchedBackward is reported at exactly the first `]` that closes nothing, if the
commands up to it fit PROG_MAX. -/
def Obligations.UnmatchedBackwardIsTheFirstOverclosing : Prop :=
  ∀ (progMax : Option Nat) (src : List Byte) (c : Nat),
    loadText progMax src = .error (.unmatchedBackward, c) ↔
      src[c]? = some 0x5D ∧ NeverOverclosed c src ∧ openCount (src.take c) = closeCount (src.take c) ∧
        FitsProgMax progMax (commandCount (src.take c) + 1)

/-- 40_loader_bracket_table.md R84: UnmatchedForward is reported, of a text that is never overclosed and fits PROG_MAX, at
exactly the `[` after which the text balances: the unmatched `[` that stands last. -/
def Obligations.UnmatchedForwardIsTheLastUnclosed : Prop :=
  ∀ (progMax : Option Nat) (src : List Byte) (p : Nat),
    loadText progMax src = .error (.unmatchedForward, p) ↔
      src[p]? = some 0x5B ∧ BalancedText (src.drop (p + 1)) ∧ NeverOverclosed src.length src ∧
        FitsProgMax progMax (commandCount src)

/-- 40_loader_bracket_table.md R86: ProgramTooLong is reported at exactly the first command that does not fit PROG_MAX, if
no `]` before it closes nothing. -/
def Obligations.ProgramTooLongIsTheFirstThatDoesNotFit : Prop :=
  ∀ (progMax : Option Nat) (src : List Byte) (c : Nat),
    loadText progMax src = .error (.programTooLong, c) ↔
      progMax = some (commandCount (src.take c)) ∧ (∃ ch ∈ src[c]?, ch ∈ commandCodes) ∧ NeverOverclosed c src

/-! ## Host interface, status and reset -/

/-- 45_host_interface.md R161, 60_exceptions.md R183, 40_loader_bracket_table.md R88: a LOAD that the engine is not Running
through always answers; on success the store and the table are the new ones and the status is Loaded; on failure the status
is LoadFailed with the kind and position; either way the run's state and `cfg` are untouched. -/
def Obligations.LoadSetsTheStatusAndLeavesTheRun : Prop :=
  ∀ (s : State) (src : List Byte), runState s ≠ some .running →
    ∃ t : State, load src s = .next t ∧ SameRun s t ∧ t.cfg = s.cfg ∧
      match loadText s.cfg.progMax src with
      | .ok (prog, jt) => t.ldState = .loaded ∧ t.prog = prog ∧ t.jt = jt
      | .error (kind, pos) => t.ldState = .loadFailed ∧ t.errKind = kind ∧ t.errPos = pos

/-- A LOAD keeps the invariant, and leaves no run begun (log 3). -/
def Obligations.LoadKeepsTheInvariant : Prop :=
  ∀ (s t : State) (src : List Byte), Inv s → load src s = .next t → Inv t ∧ runState t = none

/-- 45_host_interface.md R162, 10_state.md R27, 70_reset_and_hazards.md R210, R211: START of a loaded Program sets every
element of R27 to its reset value and leaves the Program, the load status and `cfg`; START of anything else has no
effect. -/
def Obligations.StartResetsOrIsRefused : Prop :=
  ∀ (s : State) (h : HostSide),
    (s.ldState = .loaded →
      (∀ a : Int, readTape (start h s).tape a = 0) ∧ (start h s).ptr = 0 ∧ (start h s).ip = 0 ∧
      (start h s).inBuf = 0x00 ∧ (start h s).inRem = 0 ∧ (start h s).inCur = 0 ∧ (start h s).inEos = false ∧
      (start h s).outBuf = 0x00 ∧ (start h s).outCnt = 0 ∧ (start h s).outCur = 0 ∧
      (start h s).steps = 0 ∧ (start h s).fault = none ∧
      (start h s).prog = s.prog ∧ (start h s).jt = s.jt ∧ (start h s).ldState = s.ldState ∧
      (start h s).errKind = s.errKind ∧ (start h s).errPos = s.errPos ∧ (start h s).cfg = s.cfg) ∧
    (s.ldState ≠ .loaded → start h s = s)

/-- 44_engine_cycle.md R141, R153: right after START of a well-formed Program the machine meets the invariant and is Running
if `len > 0` and Halted if `len = 0`. -/
def Obligations.StartBeginsALegalRun : Prop :=
  ∀ (s : State) (h : HostSide), s.cfg.Legal → s.ldState = .loaded → ProgramOk s.prog s.jt →
    Inv (start h s) ∧ runState (start h s) = some (if s.len = 0 then .halted else .running)

/-- 10_state.md R22, R27, 70_reset_and_hazards.md R211: at power-on nothing is loaded, the store is empty, START is refused,
and the run's elements have their reset values. -/
def Obligations.PowerOnIsUnloadedAndReset : Prop :=
  State.reset.ldState = .unloaded ∧ State.reset.prog = [] ∧ (∀ h : HostSide, start h State.reset = State.reset) ∧
  (∀ a : Int, readTape State.reset.tape a = 0) ∧ State.reset.ptr = 0 ∧ State.reset.ip = 0 ∧
  State.reset.inBuf = 0x00 ∧ State.reset.inRem = 0 ∧ State.reset.inCur = 0 ∧ State.reset.inEos = false ∧
  State.reset.outBuf = 0x00 ∧ State.reset.outCnt = 0 ∧ State.reset.outCur = 0 ∧
  State.reset.steps = 0 ∧ State.reset.fault = none

/-- 44_engine_cycle.md R153: a text without command characters halts at once with no output, whatever the configuration,
the stop request and the host's answers. (For an illegal configuration, of which the spec says nothing, this is the model's
choice: log 17.) -/
def Obligations.TextWithoutCommandsHaltsAtOnce : Prop :=
  ∀ (fuel : Nat) (c : Cfg) (src : List Byte) (h : HostSide),
    (∀ ch ∈ src, ch ∉ commandCodes) → invoke fuel c src h = some ([], .halted)

/-- 60_exceptions.md R181, R184, R185: the exit status and cause code of every outcome, and none while the engine is Running
or before any LOAD. -/
def Obligations.ExitStatusTellsTheOutcome : Prop :=
  ∀ s : State,
    (s.ldState = .unloaded → exitStatus s = none) ∧
    (s.ldState = .loadFailed → exitStatus s = some (match s.errKind with
      | .unmatchedBackward => (1, 1)
      | .unmatchedForward => (1, 2)
      | .programTooLong => (2, 5))) ∧
    (s.ldState = .loaded → s.started = true →
      exitStatus s = match s.fault with
        | some .outputUnwritable => some (2, 1)
        | some .stepBudgetExceeded => some (2, 2)
        | some .cancelled => some (2, 3)
        | some .tapeRange => some (2, 4)
        | some .programTooLong => some (2, 5)
        | none => if s.ip = s.len then some (0, 0) else none)

/-- 10_state.md R26, 45_host_interface.md R166: what the host reads does not depend on the tape, the pointer or the
partial bytes. -/
def Obligations.StatusShowsNoTapeOrPartialByte : Prop :=
  ∀ (s : State) (tape : Tape) (ptr : Int) (inBuf outBuf : Byte) (inRem outCnt : Nat),
    hostStatus { s with tape := tape, ptr := ptr, inBuf := inBuf, inRem := inRem, outBuf := outBuf, outCnt := outCnt }
      = hostStatus s

/-- 10_state.md R23, 00_scope.md R6, 70_reset_and_hazards.md R215: the host sets a legal `cfg` while the engine is not
Running, which changes nothing else. The refusals of LOAD and of `cfg` while Running, and of an illegal `cfg`, are the
model's (log 12). -/
def Obligations.HostOperationsAreRefusedWhileRunning : Prop :=
  ∀ (s : State) (c : Cfg) (src : List Byte),
    (runState s = some .running →
      load src s = .refused .loadWhileRunning ∧ setCfg c s = .refused .cfgWhileRunning) ∧
    (runState s ≠ some .running → c.Legal → setCfg c s = .next { s with cfg := c }) ∧
    (runState s ≠ some .running → ¬ c.Legal → setCfg c s = .refused .cfgIllegal)

/-- The model's placing of one word (log 9): where the decoder reads an instruction from a word, the very next step of the
state with that word placed is that instruction. -/
def Obligations.PlacedWordIsTheNextInstruction : Prop :=
  ∀ (s : State) (nbits w : Nat) (i : Instr), decodeTableWord nbits w = some i →
    step (s.withFetchWord nbits w) = exec i (s.withFetchWord nbits w)
end

