-- ==== Sys2Proof/Laws/Decode.lean ====
section
/-! SUPPORT. What the decoder answers, once for all 256 codes (30_encoding.md R61 to R63). -/

namespace Sys2Proof

/-- No two rows of the opcode map select one character. -/
theorem opcodeTable_rows_disjoint :
    opcodeTable.Pairwise (fun r q => r.pattern ≠ q.pattern) ∧ ∀ r ∈ opcodeTable, r.mask = 0xFF := by decide

/-- The decoder's answer, as a comparison with the eight codes. -/
theorem decodeChar_eq (c : Byte) : decodeChar c =
    if c = 0x2B then .command .tglPlus else if c = 0x2C then .command .inBit
    else if c = 0x2D then .command .tglMinus else if c = 0x2E then .command .outBit
    else if c = 0x3C then .command .left else if c = 0x3E then .command .right
    else if c = 0x5B then .command .jzf else if c = 0x5D then .command .jnzb else .skip := by
  have hmask : c &&& 255#8 = c := by
    have : (255#8) = BitVec.allOnes 8 := by decide
    rw [this, BitVec.and_allOnes]
  have hsel : ∀ (i : Instr) (p : Byte), OpcodeRow.selects c ⟨i, p, 255#8⟩ = decide (c = p) := by
    intro i p
    simp [OpcodeRow.selects, hmask, beq_eq_decide]
  simp only [decodeChar, opcodeTable, List.find?_cons, hsel, BitVec.ofNat_eq_ofNat]
  clear hsel
  repeat' split
  all_goals simp_all
  all_goals (rename_i e _; rw [← e])

/-- A skipped character is one whose code is not of the eight (30_encoding.md R63). -/
theorem decodeChar_eq_skip_iff (c : Byte) : decodeChar c = .skip ↔ c ∉ commandCodes := by
  rw [decodeChar_eq]
  simp only [commandCodes, List.mem_cons, List.not_mem_nil, or_false]
  repeat' split
  all_goals simp_all

/-- A command character is the code of the instruction it decodes to (30_encoding.md R62). -/
theorem eq_charCode_of_decodeChar {c : Byte} {i : Instr} (h : decodeChar c = .command i) : c = charCode i := by
  rw [decodeChar_eq] at h
  repeat' split at h
  all_goals simp_all [charCode]
  all_goals (subst h; rfl)

/-- Every character is a command or skipped (30_encoding.md R68). -/
theorem decodeChar_cases (c : Byte) : decodeChar c = .skip ∨ ∃ i, decodeChar c = .command i := by
  cases h : decodeChar c with
  | skip => exact .inl rfl
  | command i => exact .inr ⟨i, rfl⟩

@[simp] theorem operation_instr (op : Operation) : op.instr.operation = op := by cases op <;> rfl

theorem decodeText_cons_command {c : Byte} {i : Instr} (h : decodeChar c = .command i) (rest : List Byte) :
    decodeText (c :: rest) = i :: decodeText rest := by
  simp only [decodeText, h]

theorem decodeText_cons_skip {c : Byte} (h : decodeChar c = .skip) (rest : List Byte) :
    decodeText (c :: rest) = decodeText rest := by
  simp only [decodeText, h]

theorem decodeText_append (a b : List Byte) : decodeText (a ++ b) = decodeText a ++ decodeText b := by
  induction a with
  | nil => rfl
  | cons c a ih =>
    rcases decodeChar_cases c with h | ⟨i, h⟩
    · rw [List.cons_append, decodeText_cons_skip h, decodeText_cons_skip h, ih]
    · rw [List.cons_append, decodeText_cons_command h, decodeText_cons_command h, ih, List.cons_append]

end Sys2Proof
end

