-- ==== Sys2Proof/Laws/State.lean ====
section
/-! SUPPORT. One lemma per field per named update of State, so that no proof unfolds a record update. -/

namespace Sys2Proof.Machine

/-! ## writeCurrent -/

@[simp] theorem writeCurrent_tape (v : Bit) (s : State) : (writeCurrent v s).tape = writeTape s.tape s.ptr v := rfl
@[simp] theorem writeCurrent_ptr (v : Bit) (s : State) : (writeCurrent v s).ptr = s.ptr := rfl
@[simp] theorem writeCurrent_ip (v : Bit) (s : State) : (writeCurrent v s).ip = s.ip := rfl
@[simp] theorem writeCurrent_steps (v : Bit) (s : State) : (writeCurrent v s).steps = s.steps := rfl
@[simp] theorem writeCurrent_fault (v : Bit) (s : State) : (writeCurrent v s).fault = s.fault := rfl
@[simp] theorem writeCurrent_prog (v : Bit) (s : State) : (writeCurrent v s).prog = s.prog := rfl
@[simp] theorem writeCurrent_jt (v : Bit) (s : State) : (writeCurrent v s).jt = s.jt := rfl
@[simp] theorem writeCurrent_ldState (v : Bit) (s : State) : (writeCurrent v s).ldState = s.ldState := rfl
@[simp] theorem writeCurrent_errKind (v : Bit) (s : State) : (writeCurrent v s).errKind = s.errKind := rfl
@[simp] theorem writeCurrent_errPos (v : Bit) (s : State) : (writeCurrent v s).errPos = s.errPos := rfl
@[simp] theorem writeCurrent_inBuf (v : Bit) (s : State) : (writeCurrent v s).inBuf = s.inBuf := rfl
@[simp] theorem writeCurrent_inRem (v : Bit) (s : State) : (writeCurrent v s).inRem = s.inRem := rfl
@[simp] theorem writeCurrent_inCur (v : Bit) (s : State) : (writeCurrent v s).inCur = s.inCur := rfl
@[simp] theorem writeCurrent_inEos (v : Bit) (s : State) : (writeCurrent v s).inEos = s.inEos := rfl
@[simp] theorem writeCurrent_outBuf (v : Bit) (s : State) : (writeCurrent v s).outBuf = s.outBuf := rfl
@[simp] theorem writeCurrent_outCnt (v : Bit) (s : State) : (writeCurrent v s).outCnt = s.outCnt := rfl
@[simp] theorem writeCurrent_outCur (v : Bit) (s : State) : (writeCurrent v s).outCur = s.outCur := rfl
@[simp] theorem writeCurrent_cfg (v : Bit) (s : State) : (writeCurrent v s).cfg = s.cfg := rfl
@[simp] theorem writeCurrent_started (v : Bit) (s : State) : (writeCurrent v s).started = s.started := rfl
@[simp] theorem writeCurrent_hold (v : Bit) (s : State) : (writeCurrent v s).hold = s.hold := rfl
@[simp] theorem writeCurrent_host (v : Bit) (s : State) : (writeCurrent v s).host = s.host := rfl
@[simp] theorem writeCurrent_out (v : Bit) (s : State) : (writeCurrent v s).out = s.out := rfl
@[simp] theorem writeCurrent_freeCount (v : Bit) (s : State) : (writeCurrent v s).freeCount = s.freeCount := rfl

/-! ## setPtr -/

@[simp] theorem setPtr_tape (p : Int) (s : State) : (setPtr p s).tape = s.tape := rfl
@[simp] theorem setPtr_ptr (p : Int) (s : State) : (setPtr p s).ptr = p := rfl
@[simp] theorem setPtr_ip (p : Int) (s : State) : (setPtr p s).ip = s.ip := rfl
@[simp] theorem setPtr_steps (p : Int) (s : State) : (setPtr p s).steps = s.steps := rfl
@[simp] theorem setPtr_fault (p : Int) (s : State) : (setPtr p s).fault = s.fault := rfl
@[simp] theorem setPtr_prog (p : Int) (s : State) : (setPtr p s).prog = s.prog := rfl
@[simp] theorem setPtr_jt (p : Int) (s : State) : (setPtr p s).jt = s.jt := rfl
@[simp] theorem setPtr_ldState (p : Int) (s : State) : (setPtr p s).ldState = s.ldState := rfl
@[simp] theorem setPtr_errKind (p : Int) (s : State) : (setPtr p s).errKind = s.errKind := rfl
@[simp] theorem setPtr_errPos (p : Int) (s : State) : (setPtr p s).errPos = s.errPos := rfl
@[simp] theorem setPtr_inBuf (p : Int) (s : State) : (setPtr p s).inBuf = s.inBuf := rfl
@[simp] theorem setPtr_inRem (p : Int) (s : State) : (setPtr p s).inRem = s.inRem := rfl
@[simp] theorem setPtr_inCur (p : Int) (s : State) : (setPtr p s).inCur = s.inCur := rfl
@[simp] theorem setPtr_inEos (p : Int) (s : State) : (setPtr p s).inEos = s.inEos := rfl
@[simp] theorem setPtr_outBuf (p : Int) (s : State) : (setPtr p s).outBuf = s.outBuf := rfl
@[simp] theorem setPtr_outCnt (p : Int) (s : State) : (setPtr p s).outCnt = s.outCnt := rfl
@[simp] theorem setPtr_outCur (p : Int) (s : State) : (setPtr p s).outCur = s.outCur := rfl
@[simp] theorem setPtr_cfg (p : Int) (s : State) : (setPtr p s).cfg = s.cfg := rfl
@[simp] theorem setPtr_started (p : Int) (s : State) : (setPtr p s).started = s.started := rfl
@[simp] theorem setPtr_hold (p : Int) (s : State) : (setPtr p s).hold = s.hold := rfl
@[simp] theorem setPtr_host (p : Int) (s : State) : (setPtr p s).host = s.host := rfl
@[simp] theorem setPtr_out (p : Int) (s : State) : (setPtr p s).out = s.out := rfl
@[simp] theorem setPtr_freeCount (p : Int) (s : State) : (setPtr p s).freeCount = s.freeCount := rfl

/-! ## completeAt -/

@[simp] theorem completeAt_tape (n : Nat) (s : State) : (completeAt n s).tape = s.tape := rfl
@[simp] theorem completeAt_ptr (n : Nat) (s : State) : (completeAt n s).ptr = s.ptr := rfl
@[simp] theorem completeAt_ip (n : Nat) (s : State) : (completeAt n s).ip = n := rfl
@[simp] theorem completeAt_steps (n : Nat) (s : State) : (completeAt n s).steps = s.steps + 1 := rfl
@[simp] theorem completeAt_fault (n : Nat) (s : State) : (completeAt n s).fault = s.fault := rfl
@[simp] theorem completeAt_prog (n : Nat) (s : State) : (completeAt n s).prog = s.prog := rfl
@[simp] theorem completeAt_jt (n : Nat) (s : State) : (completeAt n s).jt = s.jt := rfl
@[simp] theorem completeAt_ldState (n : Nat) (s : State) : (completeAt n s).ldState = s.ldState := rfl
@[simp] theorem completeAt_errKind (n : Nat) (s : State) : (completeAt n s).errKind = s.errKind := rfl
@[simp] theorem completeAt_errPos (n : Nat) (s : State) : (completeAt n s).errPos = s.errPos := rfl
@[simp] theorem completeAt_inBuf (n : Nat) (s : State) : (completeAt n s).inBuf = s.inBuf := rfl
@[simp] theorem completeAt_inRem (n : Nat) (s : State) : (completeAt n s).inRem = s.inRem := rfl
@[simp] theorem completeAt_inCur (n : Nat) (s : State) : (completeAt n s).inCur = s.inCur := rfl
@[simp] theorem completeAt_inEos (n : Nat) (s : State) : (completeAt n s).inEos = s.inEos := rfl
@[simp] theorem completeAt_outBuf (n : Nat) (s : State) : (completeAt n s).outBuf = s.outBuf := rfl
@[simp] theorem completeAt_outCnt (n : Nat) (s : State) : (completeAt n s).outCnt = s.outCnt := rfl
@[simp] theorem completeAt_outCur (n : Nat) (s : State) : (completeAt n s).outCur = s.outCur := rfl
@[simp] theorem completeAt_cfg (n : Nat) (s : State) : (completeAt n s).cfg = s.cfg := rfl
@[simp] theorem completeAt_started (n : Nat) (s : State) : (completeAt n s).started = s.started := rfl
@[simp] theorem completeAt_hold (n : Nat) (s : State) : (completeAt n s).hold = s.hold := rfl
@[simp] theorem completeAt_host (n : Nat) (s : State) : (completeAt n s).host = s.host := rfl
@[simp] theorem completeAt_out (n : Nat) (s : State) : (completeAt n s).out = s.out := rfl
@[simp] theorem completeAt_freeCount (n : Nat) (s : State) : (completeAt n s).freeCount = s.freeCount := rfl

/-! ## advance -/

@[simp] theorem advance_tape (s : State) : (advance s).tape = s.tape := rfl
@[simp] theorem advance_ptr (s : State) : (advance s).ptr = s.ptr := rfl
@[simp] theorem advance_ip (s : State) : (advance s).ip = s.ip + 1 := rfl
@[simp] theorem advance_steps (s : State) : (advance s).steps = s.steps + 1 := rfl
@[simp] theorem advance_fault (s : State) : (advance s).fault = s.fault := rfl
@[simp] theorem advance_prog (s : State) : (advance s).prog = s.prog := rfl
@[simp] theorem advance_jt (s : State) : (advance s).jt = s.jt := rfl
@[simp] theorem advance_ldState (s : State) : (advance s).ldState = s.ldState := rfl
@[simp] theorem advance_errKind (s : State) : (advance s).errKind = s.errKind := rfl
@[simp] theorem advance_errPos (s : State) : (advance s).errPos = s.errPos := rfl
@[simp] theorem advance_inBuf (s : State) : (advance s).inBuf = s.inBuf := rfl
@[simp] theorem advance_inRem (s : State) : (advance s).inRem = s.inRem := rfl
@[simp] theorem advance_inCur (s : State) : (advance s).inCur = s.inCur := rfl
@[simp] theorem advance_inEos (s : State) : (advance s).inEos = s.inEos := rfl
@[simp] theorem advance_outBuf (s : State) : (advance s).outBuf = s.outBuf := rfl
@[simp] theorem advance_outCnt (s : State) : (advance s).outCnt = s.outCnt := rfl
@[simp] theorem advance_outCur (s : State) : (advance s).outCur = s.outCur := rfl
@[simp] theorem advance_cfg (s : State) : (advance s).cfg = s.cfg := rfl
@[simp] theorem advance_started (s : State) : (advance s).started = s.started := rfl
@[simp] theorem advance_hold (s : State) : (advance s).hold = s.hold := rfl
@[simp] theorem advance_host (s : State) : (advance s).host = s.host := rfl
@[simp] theorem advance_out (s : State) : (advance s).out = s.out := rfl
@[simp] theorem advance_freeCount (s : State) : (advance s).freeCount = s.freeCount := rfl

/-! ## raiseFault -/

@[simp] theorem raiseFault_tape (c : FaultCause) (s : State) : (raiseFault c s).tape = s.tape := rfl
@[simp] theorem raiseFault_ptr (c : FaultCause) (s : State) : (raiseFault c s).ptr = s.ptr := rfl
@[simp] theorem raiseFault_ip (c : FaultCause) (s : State) : (raiseFault c s).ip = s.ip := rfl
@[simp] theorem raiseFault_steps (c : FaultCause) (s : State) : (raiseFault c s).steps = s.steps := rfl
@[simp] theorem raiseFault_fault (c : FaultCause) (s : State) : (raiseFault c s).fault = some c := rfl
@[simp] theorem raiseFault_prog (c : FaultCause) (s : State) : (raiseFault c s).prog = s.prog := rfl
@[simp] theorem raiseFault_jt (c : FaultCause) (s : State) : (raiseFault c s).jt = s.jt := rfl
@[simp] theorem raiseFault_ldState (c : FaultCause) (s : State) : (raiseFault c s).ldState = s.ldState := rfl
@[simp] theorem raiseFault_errKind (c : FaultCause) (s : State) : (raiseFault c s).errKind = s.errKind := rfl
@[simp] theorem raiseFault_errPos (c : FaultCause) (s : State) : (raiseFault c s).errPos = s.errPos := rfl
@[simp] theorem raiseFault_inBuf (c : FaultCause) (s : State) : (raiseFault c s).inBuf = s.inBuf := rfl
@[simp] theorem raiseFault_inRem (c : FaultCause) (s : State) : (raiseFault c s).inRem = s.inRem := rfl
@[simp] theorem raiseFault_inCur (c : FaultCause) (s : State) : (raiseFault c s).inCur = s.inCur := rfl
@[simp] theorem raiseFault_inEos (c : FaultCause) (s : State) : (raiseFault c s).inEos = s.inEos := rfl
@[simp] theorem raiseFault_outBuf (c : FaultCause) (s : State) : (raiseFault c s).outBuf = s.outBuf := rfl
@[simp] theorem raiseFault_outCnt (c : FaultCause) (s : State) : (raiseFault c s).outCnt = s.outCnt := rfl
@[simp] theorem raiseFault_outCur (c : FaultCause) (s : State) : (raiseFault c s).outCur = s.outCur := rfl
@[simp] theorem raiseFault_cfg (c : FaultCause) (s : State) : (raiseFault c s).cfg = s.cfg := rfl
@[simp] theorem raiseFault_started (c : FaultCause) (s : State) : (raiseFault c s).started = s.started := rfl
@[simp] theorem raiseFault_hold (c : FaultCause) (s : State) : (raiseFault c s).hold = s.hold := rfl
@[simp] theorem raiseFault_host (c : FaultCause) (s : State) : (raiseFault c s).host = s.host := rfl
@[simp] theorem raiseFault_out (c : FaultCause) (s : State) : (raiseFault c s).out = s.out := rfl
@[simp] theorem raiseFault_freeCount (c : FaultCause) (s : State) : (raiseFault c s).freeCount = s.freeCount := rfl

/-! ## toggleCurrent -/

@[simp] theorem toggleCurrent_tape (s : State) : (toggleCurrent s).tape = writeTape s.tape s.ptr (readTape s.tape s.ptr ^^^ 1) := rfl
@[simp] theorem toggleCurrent_ptr (s : State) : (toggleCurrent s).ptr = s.ptr := rfl
@[simp] theorem toggleCurrent_ip (s : State) : (toggleCurrent s).ip = s.ip := rfl
@[simp] theorem toggleCurrent_steps (s : State) : (toggleCurrent s).steps = s.steps := rfl
@[simp] theorem toggleCurrent_fault (s : State) : (toggleCurrent s).fault = s.fault := rfl
@[simp] theorem toggleCurrent_prog (s : State) : (toggleCurrent s).prog = s.prog := rfl
@[simp] theorem toggleCurrent_jt (s : State) : (toggleCurrent s).jt = s.jt := rfl
@[simp] theorem toggleCurrent_ldState (s : State) : (toggleCurrent s).ldState = s.ldState := rfl
@[simp] theorem toggleCurrent_errKind (s : State) : (toggleCurrent s).errKind = s.errKind := rfl
@[simp] theorem toggleCurrent_errPos (s : State) : (toggleCurrent s).errPos = s.errPos := rfl
@[simp] theorem toggleCurrent_inBuf (s : State) : (toggleCurrent s).inBuf = s.inBuf := rfl
@[simp] theorem toggleCurrent_inRem (s : State) : (toggleCurrent s).inRem = s.inRem := rfl
@[simp] theorem toggleCurrent_inCur (s : State) : (toggleCurrent s).inCur = s.inCur := rfl
@[simp] theorem toggleCurrent_inEos (s : State) : (toggleCurrent s).inEos = s.inEos := rfl
@[simp] theorem toggleCurrent_outBuf (s : State) : (toggleCurrent s).outBuf = s.outBuf := rfl
@[simp] theorem toggleCurrent_outCnt (s : State) : (toggleCurrent s).outCnt = s.outCnt := rfl
@[simp] theorem toggleCurrent_outCur (s : State) : (toggleCurrent s).outCur = s.outCur := rfl
@[simp] theorem toggleCurrent_cfg (s : State) : (toggleCurrent s).cfg = s.cfg := rfl
@[simp] theorem toggleCurrent_started (s : State) : (toggleCurrent s).started = s.started := rfl
@[simp] theorem toggleCurrent_hold (s : State) : (toggleCurrent s).hold = s.hold := rfl
@[simp] theorem toggleCurrent_host (s : State) : (toggleCurrent s).host = s.host := rfl
@[simp] theorem toggleCurrent_out (s : State) : (toggleCurrent s).out = s.out := rfl
@[simp] theorem toggleCurrent_freeCount (s : State) : (toggleCurrent s).freeCount = s.freeCount := rfl

/-! ## takeByte -/

@[simp] theorem takeByte_tape (b : Byte) (s : State) : (takeByte b s).tape = s.tape := rfl
@[simp] theorem takeByte_ptr (b : Byte) (s : State) : (takeByte b s).ptr = s.ptr := rfl
@[simp] theorem takeByte_ip (b : Byte) (s : State) : (takeByte b s).ip = s.ip := rfl
@[simp] theorem takeByte_steps (b : Byte) (s : State) : (takeByte b s).steps = s.steps := rfl
@[simp] theorem takeByte_fault (b : Byte) (s : State) : (takeByte b s).fault = s.fault := rfl
@[simp] theorem takeByte_prog (b : Byte) (s : State) : (takeByte b s).prog = s.prog := rfl
@[simp] theorem takeByte_jt (b : Byte) (s : State) : (takeByte b s).jt = s.jt := rfl
@[simp] theorem takeByte_ldState (b : Byte) (s : State) : (takeByte b s).ldState = s.ldState := rfl
@[simp] theorem takeByte_errKind (b : Byte) (s : State) : (takeByte b s).errKind = s.errKind := rfl
@[simp] theorem takeByte_errPos (b : Byte) (s : State) : (takeByte b s).errPos = s.errPos := rfl
@[simp] theorem takeByte_inBuf (b : Byte) (s : State) : (takeByte b s).inBuf = b := rfl
@[simp] theorem takeByte_inRem (b : Byte) (s : State) : (takeByte b s).inRem = 8 := rfl
@[simp] theorem takeByte_inCur (b : Byte) (s : State) : (takeByte b s).inCur = s.inCur + 1 := rfl
@[simp] theorem takeByte_inEos (b : Byte) (s : State) : (takeByte b s).inEos = s.inEos := rfl
@[simp] theorem takeByte_outBuf (b : Byte) (s : State) : (takeByte b s).outBuf = s.outBuf := rfl
@[simp] theorem takeByte_outCnt (b : Byte) (s : State) : (takeByte b s).outCnt = s.outCnt := rfl
@[simp] theorem takeByte_outCur (b : Byte) (s : State) : (takeByte b s).outCur = s.outCur := rfl
@[simp] theorem takeByte_cfg (b : Byte) (s : State) : (takeByte b s).cfg = s.cfg := rfl
@[simp] theorem takeByte_started (b : Byte) (s : State) : (takeByte b s).started = s.started := rfl
@[simp] theorem takeByte_hold (b : Byte) (s : State) : (takeByte b s).hold = none := rfl
@[simp] theorem takeByte_host (b : Byte) (s : State) : (takeByte b s).host = s.host := rfl
@[simp] theorem takeByte_out (b : Byte) (s : State) : (takeByte b s).out = s.out := rfl
@[simp] theorem takeByte_freeCount (b : Byte) (s : State) : (takeByte b s).freeCount = s.freeCount := rfl

/-! ## takeEos -/

@[simp] theorem takeEos_tape (s : State) : (takeEos s).tape = s.tape := rfl
@[simp] theorem takeEos_ptr (s : State) : (takeEos s).ptr = s.ptr := rfl
@[simp] theorem takeEos_ip (s : State) : (takeEos s).ip = s.ip := rfl
@[simp] theorem takeEos_steps (s : State) : (takeEos s).steps = s.steps := rfl
@[simp] theorem takeEos_fault (s : State) : (takeEos s).fault = s.fault := rfl
@[simp] theorem takeEos_prog (s : State) : (takeEos s).prog = s.prog := rfl
@[simp] theorem takeEos_jt (s : State) : (takeEos s).jt = s.jt := rfl
@[simp] theorem takeEos_ldState (s : State) : (takeEos s).ldState = s.ldState := rfl
@[simp] theorem takeEos_errKind (s : State) : (takeEos s).errKind = s.errKind := rfl
@[simp] theorem takeEos_errPos (s : State) : (takeEos s).errPos = s.errPos := rfl
@[simp] theorem takeEos_inBuf (s : State) : (takeEos s).inBuf = s.inBuf := rfl
@[simp] theorem takeEos_inRem (s : State) : (takeEos s).inRem = s.inRem := rfl
@[simp] theorem takeEos_inCur (s : State) : (takeEos s).inCur = s.inCur := rfl
@[simp] theorem takeEos_inEos (s : State) : (takeEos s).inEos = true := rfl
@[simp] theorem takeEos_outBuf (s : State) : (takeEos s).outBuf = s.outBuf := rfl
@[simp] theorem takeEos_outCnt (s : State) : (takeEos s).outCnt = s.outCnt := rfl
@[simp] theorem takeEos_outCur (s : State) : (takeEos s).outCur = s.outCur := rfl
@[simp] theorem takeEos_cfg (s : State) : (takeEos s).cfg = s.cfg := rfl
@[simp] theorem takeEos_started (s : State) : (takeEos s).started = s.started := rfl
@[simp] theorem takeEos_hold (s : State) : (takeEos s).hold = none := rfl
@[simp] theorem takeEos_host (s : State) : (takeEos s).host = s.host := rfl
@[simp] theorem takeEos_out (s : State) : (takeEos s).out = s.out := rfl
@[simp] theorem takeEos_freeCount (s : State) : (takeEos s).freeCount = s.freeCount := rfl

/-! ## dropInputBit -/

@[simp] theorem dropInputBit_tape (s : State) : (dropInputBit s).tape = s.tape := rfl
@[simp] theorem dropInputBit_ptr (s : State) : (dropInputBit s).ptr = s.ptr := rfl
@[simp] theorem dropInputBit_ip (s : State) : (dropInputBit s).ip = s.ip := rfl
@[simp] theorem dropInputBit_steps (s : State) : (dropInputBit s).steps = s.steps := rfl
@[simp] theorem dropInputBit_fault (s : State) : (dropInputBit s).fault = s.fault := rfl
@[simp] theorem dropInputBit_prog (s : State) : (dropInputBit s).prog = s.prog := rfl
@[simp] theorem dropInputBit_jt (s : State) : (dropInputBit s).jt = s.jt := rfl
@[simp] theorem dropInputBit_ldState (s : State) : (dropInputBit s).ldState = s.ldState := rfl
@[simp] theorem dropInputBit_errKind (s : State) : (dropInputBit s).errKind = s.errKind := rfl
@[simp] theorem dropInputBit_errPos (s : State) : (dropInputBit s).errPos = s.errPos := rfl
@[simp] theorem dropInputBit_inBuf (s : State) : (dropInputBit s).inBuf = s.inBuf := rfl
@[simp] theorem dropInputBit_inRem (s : State) : (dropInputBit s).inRem = s.inRem - 1 := rfl
@[simp] theorem dropInputBit_inCur (s : State) : (dropInputBit s).inCur = s.inCur := rfl
@[simp] theorem dropInputBit_inEos (s : State) : (dropInputBit s).inEos = s.inEos := rfl
@[simp] theorem dropInputBit_outBuf (s : State) : (dropInputBit s).outBuf = s.outBuf := rfl
@[simp] theorem dropInputBit_outCnt (s : State) : (dropInputBit s).outCnt = s.outCnt := rfl
@[simp] theorem dropInputBit_outCur (s : State) : (dropInputBit s).outCur = s.outCur := rfl
@[simp] theorem dropInputBit_cfg (s : State) : (dropInputBit s).cfg = s.cfg := rfl
@[simp] theorem dropInputBit_started (s : State) : (dropInputBit s).started = s.started := rfl
@[simp] theorem dropInputBit_hold (s : State) : (dropInputBit s).hold = s.hold := rfl
@[simp] theorem dropInputBit_host (s : State) : (dropInputBit s).host = s.host := rfl
@[simp] theorem dropInputBit_out (s : State) : (dropInputBit s).out = s.out := rfl
@[simp] theorem dropInputBit_freeCount (s : State) : (dropInputBit s).freeCount = s.freeCount := rfl

/-! ## holdInput -/

@[simp] theorem holdInput_tape (s : State) : (holdInput s).tape = s.tape := rfl
@[simp] theorem holdInput_ptr (s : State) : (holdInput s).ptr = s.ptr := rfl
@[simp] theorem holdInput_ip (s : State) : (holdInput s).ip = s.ip := rfl
@[simp] theorem holdInput_steps (s : State) : (holdInput s).steps = s.steps := rfl
@[simp] theorem holdInput_fault (s : State) : (holdInput s).fault = s.fault := rfl
@[simp] theorem holdInput_prog (s : State) : (holdInput s).prog = s.prog := rfl
@[simp] theorem holdInput_jt (s : State) : (holdInput s).jt = s.jt := rfl
@[simp] theorem holdInput_ldState (s : State) : (holdInput s).ldState = s.ldState := rfl
@[simp] theorem holdInput_errKind (s : State) : (holdInput s).errKind = s.errKind := rfl
@[simp] theorem holdInput_errPos (s : State) : (holdInput s).errPos = s.errPos := rfl
@[simp] theorem holdInput_inBuf (s : State) : (holdInput s).inBuf = s.inBuf := rfl
@[simp] theorem holdInput_inRem (s : State) : (holdInput s).inRem = s.inRem := rfl
@[simp] theorem holdInput_inCur (s : State) : (holdInput s).inCur = s.inCur := rfl
@[simp] theorem holdInput_inEos (s : State) : (holdInput s).inEos = s.inEos := rfl
@[simp] theorem holdInput_outBuf (s : State) : (holdInput s).outBuf = s.outBuf := rfl
@[simp] theorem holdInput_outCnt (s : State) : (holdInput s).outCnt = s.outCnt := rfl
@[simp] theorem holdInput_outCur (s : State) : (holdInput s).outCur = s.outCur := rfl
@[simp] theorem holdInput_cfg (s : State) : (holdInput s).cfg = s.cfg := rfl
@[simp] theorem holdInput_started (s : State) : (holdInput s).started = s.started := rfl
@[simp] theorem holdInput_hold (s : State) : (holdInput s).hold = some (s.hold.getD 0 + 1) := rfl
@[simp] theorem holdInput_host (s : State) : (holdInput s).host = s.host := rfl
@[simp] theorem holdInput_out (s : State) : (holdInput s).out = s.out := rfl
@[simp] theorem holdInput_freeCount (s : State) : (holdInput s).freeCount = s.freeCount := rfl

/-! ## packBit -/

@[simp] theorem packBit_tape (w : Byte) (s : State) : (packBit w s).tape = s.tape := rfl
@[simp] theorem packBit_ptr (w : Byte) (s : State) : (packBit w s).ptr = s.ptr := rfl
@[simp] theorem packBit_ip (w : Byte) (s : State) : (packBit w s).ip = s.ip := rfl
@[simp] theorem packBit_steps (w : Byte) (s : State) : (packBit w s).steps = s.steps := rfl
@[simp] theorem packBit_fault (w : Byte) (s : State) : (packBit w s).fault = s.fault := rfl
@[simp] theorem packBit_prog (w : Byte) (s : State) : (packBit w s).prog = s.prog := rfl
@[simp] theorem packBit_jt (w : Byte) (s : State) : (packBit w s).jt = s.jt := rfl
@[simp] theorem packBit_ldState (w : Byte) (s : State) : (packBit w s).ldState = s.ldState := rfl
@[simp] theorem packBit_errKind (w : Byte) (s : State) : (packBit w s).errKind = s.errKind := rfl
@[simp] theorem packBit_errPos (w : Byte) (s : State) : (packBit w s).errPos = s.errPos := rfl
@[simp] theorem packBit_inBuf (w : Byte) (s : State) : (packBit w s).inBuf = s.inBuf := rfl
@[simp] theorem packBit_inRem (w : Byte) (s : State) : (packBit w s).inRem = s.inRem := rfl
@[simp] theorem packBit_inCur (w : Byte) (s : State) : (packBit w s).inCur = s.inCur := rfl
@[simp] theorem packBit_inEos (w : Byte) (s : State) : (packBit w s).inEos = s.inEos := rfl
@[simp] theorem packBit_outBuf (w : Byte) (s : State) : (packBit w s).outBuf = w := rfl
@[simp] theorem packBit_outCnt (w : Byte) (s : State) : (packBit w s).outCnt = s.outCnt + 1 := rfl
@[simp] theorem packBit_outCur (w : Byte) (s : State) : (packBit w s).outCur = s.outCur := rfl
@[simp] theorem packBit_cfg (w : Byte) (s : State) : (packBit w s).cfg = s.cfg := rfl
@[simp] theorem packBit_started (w : Byte) (s : State) : (packBit w s).started = s.started := rfl
@[simp] theorem packBit_hold (w : Byte) (s : State) : (packBit w s).hold = s.hold := rfl
@[simp] theorem packBit_host (w : Byte) (s : State) : (packBit w s).host = s.host := rfl
@[simp] theorem packBit_out (w : Byte) (s : State) : (packBit w s).out = s.out := rfl
@[simp] theorem packBit_freeCount (w : Byte) (s : State) : (packBit w s).freeCount = s.freeCount := rfl

/-! ## pushByte -/

@[simp] theorem pushByte_tape (w : Byte) (s : State) : (pushByte w s).tape = s.tape := rfl
@[simp] theorem pushByte_ptr (w : Byte) (s : State) : (pushByte w s).ptr = s.ptr := rfl
@[simp] theorem pushByte_ip (w : Byte) (s : State) : (pushByte w s).ip = s.ip := rfl
@[simp] theorem pushByte_steps (w : Byte) (s : State) : (pushByte w s).steps = s.steps := rfl
@[simp] theorem pushByte_fault (w : Byte) (s : State) : (pushByte w s).fault = s.fault := rfl
@[simp] theorem pushByte_prog (w : Byte) (s : State) : (pushByte w s).prog = s.prog := rfl
@[simp] theorem pushByte_jt (w : Byte) (s : State) : (pushByte w s).jt = s.jt := rfl
@[simp] theorem pushByte_ldState (w : Byte) (s : State) : (pushByte w s).ldState = s.ldState := rfl
@[simp] theorem pushByte_errKind (w : Byte) (s : State) : (pushByte w s).errKind = s.errKind := rfl
@[simp] theorem pushByte_errPos (w : Byte) (s : State) : (pushByte w s).errPos = s.errPos := rfl
@[simp] theorem pushByte_inBuf (w : Byte) (s : State) : (pushByte w s).inBuf = s.inBuf := rfl
@[simp] theorem pushByte_inRem (w : Byte) (s : State) : (pushByte w s).inRem = s.inRem := rfl
@[simp] theorem pushByte_inCur (w : Byte) (s : State) : (pushByte w s).inCur = s.inCur := rfl
@[simp] theorem pushByte_inEos (w : Byte) (s : State) : (pushByte w s).inEos = s.inEos := rfl
@[simp] theorem pushByte_outBuf (w : Byte) (s : State) : (pushByte w s).outBuf = 0x00 := rfl
@[simp] theorem pushByte_outCnt (w : Byte) (s : State) : (pushByte w s).outCnt = 0 := rfl
@[simp] theorem pushByte_outCur (w : Byte) (s : State) : (pushByte w s).outCur = s.outCur + 1 := rfl
@[simp] theorem pushByte_cfg (w : Byte) (s : State) : (pushByte w s).cfg = s.cfg := rfl
@[simp] theorem pushByte_started (w : Byte) (s : State) : (pushByte w s).started = s.started := rfl
@[simp] theorem pushByte_hold (w : Byte) (s : State) : (pushByte w s).hold = s.hold := rfl
@[simp] theorem pushByte_host (w : Byte) (s : State) : (pushByte w s).host = s.host := rfl
@[simp] theorem pushByte_out (w : Byte) (s : State) : (pushByte w s).out = s.out ++ [w] := rfl
@[simp] theorem pushByte_freeCount (w : Byte) (s : State) : (pushByte w s).freeCount = s.freeCount := rfl

/-! ## resetRun -/

@[simp] theorem resetRun_tape (s : State) : (resetRun s).tape = [] := rfl
@[simp] theorem resetRun_ptr (s : State) : (resetRun s).ptr = 0 := rfl
@[simp] theorem resetRun_ip (s : State) : (resetRun s).ip = 0 := rfl
@[simp] theorem resetRun_steps (s : State) : (resetRun s).steps = 0 := rfl
@[simp] theorem resetRun_fault (s : State) : (resetRun s).fault = none := rfl
@[simp] theorem resetRun_prog (s : State) : (resetRun s).prog = s.prog := rfl
@[simp] theorem resetRun_jt (s : State) : (resetRun s).jt = s.jt := rfl
@[simp] theorem resetRun_ldState (s : State) : (resetRun s).ldState = s.ldState := rfl
@[simp] theorem resetRun_errKind (s : State) : (resetRun s).errKind = s.errKind := rfl
@[simp] theorem resetRun_errPos (s : State) : (resetRun s).errPos = s.errPos := rfl
@[simp] theorem resetRun_inBuf (s : State) : (resetRun s).inBuf = 0x00 := rfl
@[simp] theorem resetRun_inRem (s : State) : (resetRun s).inRem = 0 := rfl
@[simp] theorem resetRun_inCur (s : State) : (resetRun s).inCur = 0 := rfl
@[simp] theorem resetRun_inEos (s : State) : (resetRun s).inEos = false := rfl
@[simp] theorem resetRun_outBuf (s : State) : (resetRun s).outBuf = 0x00 := rfl
@[simp] theorem resetRun_outCnt (s : State) : (resetRun s).outCnt = 0 := rfl
@[simp] theorem resetRun_outCur (s : State) : (resetRun s).outCur = 0 := rfl
@[simp] theorem resetRun_cfg (s : State) : (resetRun s).cfg = s.cfg := rfl
@[simp] theorem resetRun_started (s : State) : (resetRun s).started = s.started := rfl
@[simp] theorem resetRun_hold (s : State) : (resetRun s).hold = none := rfl
@[simp] theorem resetRun_host (s : State) : (resetRun s).host = s.host := rfl
@[simp] theorem resetRun_out (s : State) : (resetRun s).out = [] := rfl
@[simp] theorem resetRun_freeCount (s : State) : (resetRun s).freeCount = s.freeCount := rfl

/-! ## loadSucceeds -/

@[simp] theorem loadSucceeds_tape (p : List Operation) (j : List (Option Nat)) (s : State) : (loadSucceeds p j s).tape = s.tape := rfl
@[simp] theorem loadSucceeds_ptr (p : List Operation) (j : List (Option Nat)) (s : State) : (loadSucceeds p j s).ptr = s.ptr := rfl
@[simp] theorem loadSucceeds_ip (p : List Operation) (j : List (Option Nat)) (s : State) : (loadSucceeds p j s).ip = s.ip := rfl
@[simp] theorem loadSucceeds_steps (p : List Operation) (j : List (Option Nat)) (s : State) : (loadSucceeds p j s).steps = s.steps := rfl
@[simp] theorem loadSucceeds_fault (p : List Operation) (j : List (Option Nat)) (s : State) : (loadSucceeds p j s).fault = s.fault := rfl
@[simp] theorem loadSucceeds_prog (p : List Operation) (j : List (Option Nat)) (s : State) : (loadSucceeds p j s).prog = p := rfl
@[simp] theorem loadSucceeds_jt (p : List Operation) (j : List (Option Nat)) (s : State) : (loadSucceeds p j s).jt = j := rfl
@[simp] theorem loadSucceeds_ldState (p : List Operation) (j : List (Option Nat)) (s : State) : (loadSucceeds p j s).ldState = .loaded := rfl
@[simp] theorem loadSucceeds_errKind (p : List Operation) (j : List (Option Nat)) (s : State) : (loadSucceeds p j s).errKind = s.errKind := rfl
@[simp] theorem loadSucceeds_errPos (p : List Operation) (j : List (Option Nat)) (s : State) : (loadSucceeds p j s).errPos = s.errPos := rfl
@[simp] theorem loadSucceeds_inBuf (p : List Operation) (j : List (Option Nat)) (s : State) : (loadSucceeds p j s).inBuf = s.inBuf := rfl
@[simp] theorem loadSucceeds_inRem (p : List Operation) (j : List (Option Nat)) (s : State) : (loadSucceeds p j s).inRem = s.inRem := rfl
@[simp] theorem loadSucceeds_inCur (p : List Operation) (j : List (Option Nat)) (s : State) : (loadSucceeds p j s).inCur = s.inCur := rfl
@[simp] theorem loadSucceeds_inEos (p : List Operation) (j : List (Option Nat)) (s : State) : (loadSucceeds p j s).inEos = s.inEos := rfl
@[simp] theorem loadSucceeds_outBuf (p : List Operation) (j : List (Option Nat)) (s : State) : (loadSucceeds p j s).outBuf = s.outBuf := rfl
@[simp] theorem loadSucceeds_outCnt (p : List Operation) (j : List (Option Nat)) (s : State) : (loadSucceeds p j s).outCnt = s.outCnt := rfl
@[simp] theorem loadSucceeds_outCur (p : List Operation) (j : List (Option Nat)) (s : State) : (loadSucceeds p j s).outCur = s.outCur := rfl
@[simp] theorem loadSucceeds_cfg (p : List Operation) (j : List (Option Nat)) (s : State) : (loadSucceeds p j s).cfg = s.cfg := rfl
@[simp] theorem loadSucceeds_started (p : List Operation) (j : List (Option Nat)) (s : State) : (loadSucceeds p j s).started = false := rfl
@[simp] theorem loadSucceeds_hold (p : List Operation) (j : List (Option Nat)) (s : State) : (loadSucceeds p j s).hold = s.hold := rfl
@[simp] theorem loadSucceeds_host (p : List Operation) (j : List (Option Nat)) (s : State) : (loadSucceeds p j s).host = s.host := rfl
@[simp] theorem loadSucceeds_out (p : List Operation) (j : List (Option Nat)) (s : State) : (loadSucceeds p j s).out = s.out := rfl
@[simp] theorem loadSucceeds_freeCount (p : List Operation) (j : List (Option Nat)) (s : State) : (loadSucceeds p j s).freeCount = s.freeCount := rfl

/-! ## loadFails -/

@[simp] theorem loadFails_tape (k : LoadErrorKind) (n : Nat) (s : State) : (loadFails k n s).tape = s.tape := rfl
@[simp] theorem loadFails_ptr (k : LoadErrorKind) (n : Nat) (s : State) : (loadFails k n s).ptr = s.ptr := rfl
@[simp] theorem loadFails_ip (k : LoadErrorKind) (n : Nat) (s : State) : (loadFails k n s).ip = s.ip := rfl
@[simp] theorem loadFails_steps (k : LoadErrorKind) (n : Nat) (s : State) : (loadFails k n s).steps = s.steps := rfl
@[simp] theorem loadFails_fault (k : LoadErrorKind) (n : Nat) (s : State) : (loadFails k n s).fault = s.fault := rfl
@[simp] theorem loadFails_prog (k : LoadErrorKind) (n : Nat) (s : State) : (loadFails k n s).prog = Config.progAfterFailedLoad s.freeCount := rfl
@[simp] theorem loadFails_jt (k : LoadErrorKind) (n : Nat) (s : State) : (loadFails k n s).jt = Config.jumpTableAfterFailedLoad s.freeCount := rfl
@[simp] theorem loadFails_ldState (k : LoadErrorKind) (n : Nat) (s : State) : (loadFails k n s).ldState = .loadFailed := rfl
@[simp] theorem loadFails_errKind (k : LoadErrorKind) (n : Nat) (s : State) : (loadFails k n s).errKind = k := rfl
@[simp] theorem loadFails_errPos (k : LoadErrorKind) (n : Nat) (s : State) : (loadFails k n s).errPos = n := rfl
@[simp] theorem loadFails_inBuf (k : LoadErrorKind) (n : Nat) (s : State) : (loadFails k n s).inBuf = s.inBuf := rfl
@[simp] theorem loadFails_inRem (k : LoadErrorKind) (n : Nat) (s : State) : (loadFails k n s).inRem = s.inRem := rfl
@[simp] theorem loadFails_inCur (k : LoadErrorKind) (n : Nat) (s : State) : (loadFails k n s).inCur = s.inCur := rfl
@[simp] theorem loadFails_inEos (k : LoadErrorKind) (n : Nat) (s : State) : (loadFails k n s).inEos = s.inEos := rfl
@[simp] theorem loadFails_outBuf (k : LoadErrorKind) (n : Nat) (s : State) : (loadFails k n s).outBuf = s.outBuf := rfl
@[simp] theorem loadFails_outCnt (k : LoadErrorKind) (n : Nat) (s : State) : (loadFails k n s).outCnt = s.outCnt := rfl
@[simp] theorem loadFails_outCur (k : LoadErrorKind) (n : Nat) (s : State) : (loadFails k n s).outCur = s.outCur := rfl
@[simp] theorem loadFails_cfg (k : LoadErrorKind) (n : Nat) (s : State) : (loadFails k n s).cfg = s.cfg := rfl
@[simp] theorem loadFails_started (k : LoadErrorKind) (n : Nat) (s : State) : (loadFails k n s).started = false := rfl
@[simp] theorem loadFails_hold (k : LoadErrorKind) (n : Nat) (s : State) : (loadFails k n s).hold = s.hold := rfl
@[simp] theorem loadFails_host (k : LoadErrorKind) (n : Nat) (s : State) : (loadFails k n s).host = s.host := rfl
@[simp] theorem loadFails_out (k : LoadErrorKind) (n : Nat) (s : State) : (loadFails k n s).out = s.out := rfl
@[simp] theorem loadFails_freeCount (k : LoadErrorKind) (n : Nat) (s : State) : (loadFails k n s).freeCount = s.freeCount + 1 := rfl

end Sys2Proof.Machine
end

