-- ==== Sys2Proof/Laws/Loader.lean ====
section
/-! SUPPORT. What each operation of the loader and of the host can do, said once (40_loader_bracket_table.md R82,
45_host_interface.md R161, R162). -/

namespace Sys2Proof.Machine

/-! ## The table -/

/-- Outside the table there is no entry. -/
theorem jumpAt_of_length_le {jt : List (Option Nat)} {i : Nat} (h : jt.length ≤ i) : jumpAt jt i = none := by
  simp [jumpAt, List.getElem?_eq_none h]

/-- An entry is inside the table. -/
theorem lt_length_of_jumpAt {jt : List (Option Nat)} {i j : Nat} (h : jumpAt jt i = some j) : i < jt.length := by
  by_contra hc
  simp [jumpAt_of_length_le (Nat.le_of_not_lt hc)] at h

/-- A NONE entry at the end links nothing. -/
@[simp] theorem jumpAt_append_none (jt : List (Option Nat)) (i : Nat) : jumpAt (jt ++ [none]) i = jumpAt jt i := by
  rcases Nat.lt_trichotomy i jt.length with h | rfl | h
  · simp [jumpAt, List.getElem?_append_left h]
  · simp [jumpAt]
  · rw [jumpAt_of_length_le (jt := jt ++ [none]) (by simpa using h), jumpAt_of_length_le h.le]

/-- One entry set. -/
theorem jumpAt_set {jt : List (Option Nat)} {i : Nat} (v : Option Nat) (h : i < jt.length) (x : Nat) :
    jumpAt (jt.set i v) x = if x = i then v else jumpAt jt x := by
  by_cases hx : x = i
  · subst hx
    simp [jumpAt, h]
  · simp [jumpAt, hx, List.getElem?_set_ne (Ne.symm hx)]

/-- A linked pair, and every other entry as before (40_loader_bracket_table.md R82). -/
theorem jumpAt_linkPair {jt : List (Option Nat)} {i k : Nat} (hi : i < jt.length) (hk : k < jt.length) (x : Nat) :
    jumpAt (linkPair i k jt) x = if x = k then some i else if x = i then some k else jumpAt jt x := by
  unfold linkPair
  rw [jumpAt_set _ (by simpa using hk), jumpAt_set _ hi]

@[simp] theorem length_linkPair (i k : Nat) (jt : List (Option Nat)) : (linkPair i k jt).length = jt.length := by
  simp [linkPair]

/-! ## The scan -/

/-- All that one character of the scan can do (40_loader_bracket_table.md R82, R83, R86). -/
theorem scanChar_cases (progMax : Option Nat) (c : Nat) (ch : Byte) (w : Scan) :
    (ch ∉ commandCodes ∧ scanChar progMax c ch w = .ok w) ∨
    (∃ i, decodeChar ch = .command i ∧ progMax = some w.prog.length ∧
      scanChar progMax c ch w = .error (.programTooLong, c)) ∨
    (∃ i, decodeChar ch = .command i ∧ progMax ≠ some w.prog.length ∧
      scanChar progMax c ch w = matchBracket i.operation w.prog.length c (storeOperation i.operation c w)) := by
  rcases decodeChar_cases ch with h | ⟨i, h⟩
  · exact .inl ⟨(decodeChar_eq_skip_iff ch).1 h, by simp [scanChar, h]⟩
  · by_cases hp : progMax = some w.prog.length
    · exact .inr (.inl ⟨i, h, hp, by simp [scanChar, h, hp]⟩)
    · exact .inr (.inr ⟨i, h, hp, by simp [scanChar, h, hp]⟩)

/-- All that the bracket rules can do (40_loader_bracket_table.md R82, R83). -/
theorem matchBracket_cases (op : Operation) (k c : Nat) (w : Scan) :
    (op.isBracket = false ∧ matchBracket op k c w = .ok w) ∨
    (op = .jumpIfZeroForward ∧ matchBracket op k c w = .ok { w with stack := k :: w.stack }) ∨
    (op = .jumpIfNonZeroBackward ∧ w.stack = [] ∧ matchBracket op k c w = .error (.unmatchedBackward, c)) ∨
    (op = .jumpIfNonZeroBackward ∧ ∃ i below, w.stack = i :: below ∧
      matchBracket op k c w = .ok { w with stack := below, jt := linkPair i k w.jt }) := by
  cases op with
  | jumpIfZeroForward => exact .inr (.inl ⟨rfl, rfl⟩)
  | jumpIfNonZeroBackward =>
    cases h : w.stack with
    | nil => exact .inr (.inr (.inl ⟨rfl, rfl, by simp [matchBracket, h]⟩))
    | cons i below => exact .inr (.inr (.inr ⟨rfl, i, below, rfl, by simp [matchBracket, h]⟩))
  | toggleBit => exact .inl ⟨rfl, rfl⟩
  | moveLeft => exact .inl ⟨rfl, rfl⟩
  | moveRight => exact .inl ⟨rfl, rfl⟩
  | readBit => exact .inl ⟨rfl, rfl⟩
  | writeBit => exact .inl ⟨rfl, rfl⟩

/-! ## The host's operations -/

/-- All that `LOAD` can do (45_host_interface.md R161, 70_reset_and_hazards.md R215). -/
theorem load_cases (src : List Byte) (s : State) :
    (runState s = some .running ∧ load src s = .refused .loadWhileRunning) ∨
    (runState s ≠ some .running ∧ ∃ prog jt, loadText s.cfg.progMax src = .ok (prog, jt) ∧
      load src s = .next (loadSucceeds prog jt s)) ∨
    (runState s ≠ some .running ∧ ∃ kind pos, loadText s.cfg.progMax src = .error (kind, pos) ∧
      load src s = .next (loadFails kind pos s)) := by
  by_cases h : runState s = some .running
  · exact .inl ⟨h, by simp [load, h]⟩
  · cases hl : loadText s.cfg.progMax src with
    | ok p => exact .inr (.inl ⟨h, p.1, p.2, rfl, by simp [load, h, hl]⟩)
    | error e => exact .inr (.inr ⟨h, e.1, e.2, rfl, by simp [load, h, hl]⟩)

/-- `START` of a loaded Program (45_host_interface.md R162). -/
theorem start_of_loaded {s : State} (h : s.ldState = .loaded) (hs : HostSide) :
    start hs s = { resetRun s with host := hs, started := true } := if_pos h

/-- `START` of anything else has no effect. -/
theorem start_of_not_loaded {s : State} (h : s.ldState ≠ .loaded) (hs : HostSide) : start hs s = s := if_neg h

/-- A LOAD leaves no run begun (log 3). -/
@[simp] theorem runState_loadSucceeds (prog : List Operation) (jt : List (Option Nat)) (s : State) :
    runState (loadSucceeds prog jt s) = none := by
  simp [runState, engineStarted]

/-- A failed LOAD leaves no run begun. -/
@[simp] theorem runState_loadFails (kind : LoadErrorKind) (pos : Nat) (s : State) :
    runState (loadFails kind pos s) = none := by
  simp [runState, engineStarted]

end Sys2Proof.Machine
end

