-- ==== Sys2Proof/Laws/Tape.lean ====
section
/-! SUPPORT. The laws of the tape: what a read sees, and that a write keeps the canonical form (10_state.md R11, log 1). -/

namespace Sys2Proof.Machine

@[simp] theorem readTape_nil (a : Int) : readTape [] a = 0 := rfl

theorem readTape_cons (c : Int × Bit) (t : Tape) (a : Int) :
    readTape (c :: t) a = if a = c.1 then c.2 else readTape t a := rfl

/-- The empty tape is canonical. -/
theorem tapeWf_nil : tapeWf [] := ⟨List.Pairwise.nil, by simp⟩

/-- A canonical tape, taken apart. -/
theorem tapeWf_cons {c : Int × Bit} {t : Tape} :
    tapeWf (c :: t) ↔ (∀ d ∈ t, c.1 < d.1) ∧ c.2 ≠ 0 ∧ tapeWf t := by
  simp only [tapeWf, List.pairwise_cons, List.forall_mem_cons]
  tauto

/-- Below every listed address a tape reads 0. -/
theorem readTape_of_below {t : Tape} {a : Int} (h : ∀ d ∈ t, a < d.1) : readTape t a = 0 := by
  induction t with
  | nil => rfl
  | cons c t ih =>
    have hc : a < c.1 := h c (by simp)
    rw [readTape_cons, if_neg (by omega)]
    exact ih fun d hd => h d (by simp [hd])

/-- A write lists no address but the written one and those listed before. -/
theorem mem_writeTape {t : Tape} {a : Int} {v : Bit} {d : Int × Bit} (h : d ∈ writeTape t a v) :
    d = (a, v) ∨ d ∈ t := by
  induction t with
  | nil =>
    unfold writeTape at h
    split at h <;> simp_all
  | cons c t ih =>
    obtain ⟨b, w⟩ := c
    unfold writeTape at h
    split at h
    · split at h <;> simp_all
    · split at h
      · split at h
        · exact .inr (List.mem_cons_of_mem _ h)
        · rcases List.mem_cons.1 h with h | h
          · exact .inl h
          · exact .inr (List.mem_cons_of_mem _ h)
      · rcases List.mem_cons.1 h with h | h
        · simp [h]
        · rcases ih h with h | h <;> simp [h]

/-- A write keeps the canonical form. -/
theorem tapeWf_writeTape {t : Tape} (h : tapeWf t) (a : Int) (v : Bit) : tapeWf (writeTape t a v) := by
  induction t with
  | nil =>
    unfold writeTape
    split
    · exact tapeWf_nil
    · exact tapeWf_cons.2 ⟨by simp, by assumption, tapeWf_nil⟩
  | cons c t ih =>
    obtain ⟨b, w⟩ := c
    obtain ⟨hb, hw, ht⟩ := tapeWf_cons.1 h
    simp only at hb hw
    unfold writeTape
    split
    · rename_i hab
      split
      · exact h
      · refine tapeWf_cons.2 ⟨fun d hd => ?_, by assumption, h⟩
        rcases List.mem_cons.1 hd with rfl | hd
        · exact hab
        · exact lt_trans hab (hb d hd)
    · split
      · rename_i hab
        split
        · exact ht
        · exact tapeWf_cons.2 ⟨fun d hd => by simpa [hab] using hb d hd, by assumption, ht⟩
      · refine tapeWf_cons.2 ⟨fun d hd => ?_, hw, ih ht⟩
        rcases mem_writeTape hd with rfl | hd
        · simp only; omega
        · exact hb d hd

/-- What a canonical tape reads after a write. -/
theorem readTape_writeTape {t : Tape} (h : tapeWf t) (a : Int) (v : Bit) (x : Int) :
    readTape (writeTape t a v) x = if x = a then v else readTape t x := by
  induction t with
  | nil =>
    unfold writeTape
    split <;> rename_i hv
    · simp [hv]
    · simp [readTape]
  | cons c t ih =>
    obtain ⟨b, w⟩ := c
    obtain ⟨hb, hw, ht⟩ := tapeWf_cons.1 h
    simp only at hb
    unfold writeTape
    split
    · rename_i hab
      split
      · rename_i hv
        by_cases hx : x = a
        · subst hx
          rw [if_pos rfl, hv]
          refine readTape_of_below fun d hd => ?_
          rcases List.mem_cons.1 hd with rfl | hd
          · exact hab
          · exact lt_trans hab (hb d hd)
        · rw [if_neg hx]
      · rfl
    · split
      · rename_i _ hab
        split
        · rename_i hv
          by_cases hx : x = a
          · rw [if_pos hx, hv]
            exact readTape_of_below fun d hd => by rw [hx, hab]; exact hb d hd
          · rw [if_neg hx, readTape_cons, if_neg (by simpa [← hab] using hx)]
        · by_cases hx : x = a
          · rw [readTape_cons, if_pos hx, if_pos hx]
          · rw [readTape_cons, if_neg hx, if_neg hx, readTape_cons, if_neg (by simpa [← hab] using hx)]
      · rw [readTape_cons, readTape_cons, ih ht]
        by_cases hx : x = b
        · subst hx
          rw [if_pos rfl, if_neg (by omega), if_pos rfl]
        · rw [if_neg hx, if_neg hx]

/-- The current bit is the tape's bit at the pointer. -/
theorem currentBit_eq (s : State) : currentBit s = readTape s.tape s.ptr := rfl

/-- A write at the pointer keeps the canonical form. -/
theorem tapeWf_writeCurrent {s : State} (h : tapeWf s.tape) (v : Bit) : tapeWf (writeCurrent v s).tape :=
  tapeWf_writeTape h s.ptr v

/-- The reset tape is canonical. -/
theorem tapeWf_resetRun (s : State) : tapeWf (resetRun s).tape := tapeWf_nil

end Sys2Proof.Machine
end

