-- ==== Sys2Proof/Laws/Ops.lean ====
section
/-! SUPPORT. What each shared operation, each meaning and the step can do, said once: later proofs cite these instead of
unfolding. -/

namespace Sys2Proof.Machine

/-! ## Bits of a byte -/

/-- A bit is 0 or 1 (00_scope.md R7). -/
theorem bit_cases (v : Bit) : v = 0 ∨ v = 1 := (by decide : ∀ w : Bit, w = 0 ∨ w = 1) v

/-- Bit `i` of a byte, as 0 or 1. -/
theorem bitOf_eq (b : Byte) (i : Nat) : bitOf b i = if b.getLsbD i then 1 else 0 := by
  unfold bitOf
  ext j hj
  obtain rfl : j = 0 := by omega
  by_cases h : b.toNat.testBit i <;> simp [BitVec.getLsbD, h]

/-- The bits of a byte "with bit `i` set to `v`" (42_io_ops.md R114). -/
theorem getLsbD_withBit (b : Byte) (v : Bit) {i k : Nat} (hk : k < 8) :
    (withBit b i v).getLsbD k = if k = i then decide (v = 1) else b.getLsbD k := by
  rcases Nat.lt_trichotomy k i with h | rfl | h
  · rcases bit_cases v with rfl | rfl <;> simp [withBit, hk, h, Nat.ne_of_lt h]
  · rcases bit_cases v with rfl | rfl <;> simp [withBit, hk]
  · have : ¬ k - i = 0 := by omega
    rcases bit_cases v with rfl | rfl <;>
      simp [withBit, hk, Nat.ne_of_gt h, this]

/-! ## The unpacker -/

/-- What an `InPull` brings (20_memory.md R43, 44_engine_cycle.md R150). -/
theorem inPull_cases (s : State) :
    (hostAnswersPull s = false ∧ inPull s = .unanswered) ∨
    (hostAnswersPull s = true ∧ ∃ b, s.host.inp[s.inCur]? = some b ∧ inPull s = .byte b) ∨
    (hostAnswersPull s = true ∧ s.host.inp[s.inCur]? = none ∧ inPull s = .eos) := by
  unfold inPull
  cases hostAnswersPull s <;> cases s.host.inp[s.inCur]? <;> simp

/-- Bits of the current byte left: the next one, and no pull. -/
theorem readBit_of_buffered {s : State} (h : s.inRem ≠ 0) :
    readBit s = some (bitOf s.inBuf (8 - s.inRem), dropInputBit s) := by
  simp [readBit, pullIfExhausted, deliverBit, h]

/-- End of input already known: EOF_BIT, and no pull. -/
theorem readBit_of_eos {s : State} (h : s.inRem = 0) (he : s.inEos = true) :
    readBit s = some (s.cfg.eofBit, s) := by
  simp [readBit, pullIfExhausted, deliverBit, h, he]

/-- A byte is pulled: its bit 0, and seven bits left. -/
theorem readBit_of_byte {s : State} {b : Byte} (h : s.inRem = 0) (he : s.inEos = false) (hp : inPull s = .byte b) :
    readBit s = some (bitOf b 0, dropInputBit (takeByte b s)) := by
  simp [readBit, pullIfExhausted, deliverBit, h, he, hp]

/-- End of input found now: EOF_BIT. -/
theorem readBit_of_end {s : State} (h : s.inRem = 0) (he : s.inEos = false) (hp : inPull s = .eos) :
    readBit s = some (s.cfg.eofBit, takeEos s) := by
  simp [readBit, pullIfExhausted, deliverBit, h, he, hp]

/-- The host has not answered: nothing yet. -/
theorem readBit_of_unanswered {s : State} (h : s.inRem = 0) (he : s.inEos = false) (hp : inPull s = .unanswered) :
    readBit s = none := by
  simp [readBit, pullIfExhausted, h, he, hp]

/-- All that `read_bit()` can do (42_io_ops.md R111). -/
theorem readBit_cases (s : State) :
    (s.inRem ≠ 0 ∧ readBit s = some (bitOf s.inBuf (8 - s.inRem), dropInputBit s)) ∨
    (s.inRem = 0 ∧ s.inEos = true ∧ readBit s = some (s.cfg.eofBit, s)) ∨
    (s.inRem = 0 ∧ s.inEos = false ∧ hostAnswersPull s = true ∧ ∃ b, s.host.inp[s.inCur]? = some b ∧
      readBit s = some (bitOf b 0, dropInputBit (takeByte b s))) ∨
    (s.inRem = 0 ∧ s.inEos = false ∧ hostAnswersPull s = true ∧ s.host.inp[s.inCur]? = none ∧
      readBit s = some (s.cfg.eofBit, takeEos s)) ∨
    (s.inRem = 0 ∧ s.inEos = false ∧ hostAnswersPull s = false ∧ readBit s = none) := by
  by_cases h : s.inRem = 0
  · cases he : s.inEos
    · rcases inPull_cases s with ⟨ha, hp⟩ | ⟨ha, b, hb, hp⟩ | ⟨ha, hb, hp⟩
      · exact .inr (.inr (.inr (.inr ⟨h, rfl, ha, readBit_of_unanswered h he hp⟩)))
      · exact .inr (.inr (.inl ⟨h, rfl, ha, b, hb, readBit_of_byte h he hp⟩))
      · exact .inr (.inr (.inr (.inl ⟨h, rfl, ha, hb, readBit_of_end h he hp⟩)))
    · exact .inr (.inl ⟨h, rfl, readBit_of_eos h he⟩)
  · exact .inl ⟨h, readBit_of_buffered h⟩

/-! ## The packer -/

/-- All that `write_bit(b)` can do (42_io_ops.md R114). -/
theorem writeBit_cases (b : Bit) (s : State) :
    (s.outCnt < 7 ∧ writeBit b s = some (packBit (withBit s.outBuf s.outCnt b) s)) ∨
    (7 ≤ s.outCnt ∧ outPush (withBit s.outBuf s.outCnt b) s = .ok ∧
      writeBit b s = some (pushByte (withBit s.outBuf s.outCnt b) s)) ∨
    (7 ≤ s.outCnt ∧ outPush (withBit s.outBuf s.outCnt b) s = .fail ∧ writeBit b s = none) := by
  by_cases h : s.outCnt < 7
  · exact .inl ⟨h, by simp [writeBit, h]⟩
  · have h7 : 7 ≤ s.outCnt := by omega
    cases hp : outPush (withBit s.outBuf s.outCnt b) s
    · exact .inr (.inl ⟨h7, rfl, by simp [writeBit, h, hp]⟩)
    · exact .inr (.inr ⟨h7, rfl, by simp [writeBit, h, hp]⟩)

/-! ## The meanings -/

/-- All that a toggle can do (41_tape_ops.md R100, R101). -/
theorem exec_toggle {i : Instr} (h : i = .tglPlus ∨ i = .tglMinus) (s : State) :
    exec i s = .next (advance (toggleCurrent s)) := by
  rcases h with rfl | rfl <;> rfl

/-- All that LEFT can do (41_tape_ops.md R102, R104). -/
theorem exec_left_cases (s : State) :
    ((∃ m ∈ s.cfg.ptrMin, s.ptr - 1 < m) ∧ exec .left s = .next (raiseFault .tapeRange s)) ∨
    ((∀ m ∈ s.cfg.ptrMin, m ≤ s.ptr - 1) ∧ exec .left s = .next (advance (setPtr (s.ptr - 1) s))) := by
  cases h : s.cfg.ptrMin with
  | none => simp [exec, execLeft, belowRange, h]
  | some m =>
    by_cases hm : s.ptr - 1 < m
    · exact .inl ⟨⟨m, rfl, hm⟩, by simp only [exec, execLeft, belowRange, h, hm, decide_true, if_true]⟩
    · refine .inr ⟨fun n hn => ?_, by simp [exec, execLeft, belowRange, h, hm]⟩
      rw [← Option.some.inj hn]
      exact not_lt.1 hm

/-- All that RIGHT can do (41_tape_ops.md R103, R105). -/
theorem exec_right_cases (s : State) :
    ((∃ m ∈ s.cfg.ptrMax, m < s.ptr + 1) ∧ exec .right s = .next (raiseFault .tapeRange s)) ∨
    ((∀ m ∈ s.cfg.ptrMax, s.ptr + 1 ≤ m) ∧ exec .right s = .next (advance (setPtr (s.ptr + 1) s))) := by
  cases h : s.cfg.ptrMax with
  | none => simp [exec, execRight, aboveRange, h]
  | some m =>
    by_cases hm : m < s.ptr + 1
    · exact .inl ⟨⟨m, rfl, hm⟩, by simp only [exec, execRight, aboveRange, h, hm, decide_true, if_true]⟩
    · refine .inr ⟨fun n hn => ?_, by simp [exec, execRight, aboveRange, h, hm]⟩
      rw [← Option.some.inj hn]
      exact not_lt.1 hm

/-- All that IN can do (42_io_ops.md R112, 44_engine_cycle.md R150). -/
theorem exec_inBit_cases (s : State) :
    (∃ v u, readBit s = some (v, u) ∧ exec .inBit s = .next (advance (writeCurrent v u))) ∨
    (readBit s = none ∧ exec .inBit s = .next (holdInput s)) := by
  cases h : readBit s with
  | none => exact .inr ⟨rfl, by simp [exec, execInBit, h]⟩
  | some p => exact .inl ⟨p.1, p.2, rfl, by simp [exec, execInBit, h]⟩

/-- All that OUT can do (42_io_ops.md R115). -/
theorem exec_outBit_cases (s : State) :
    (∃ u, writeBit (currentBit s) s = some u ∧ exec .outBit s = .next (advance u)) ∨
    (writeBit (currentBit s) s = none ∧ exec .outBit s = .next (raiseFault .outputUnwritable s)) := by
  cases h : writeBit (currentBit s) s with
  | none => exact .inr ⟨rfl, by simp [exec, execOutBit, h]⟩
  | some u => exact .inl ⟨u, rfl, by simp [exec, execOutBit, h]⟩

/-- All that JZF can do (43_jump_ops.md R130). -/
theorem exec_jzf_cases (s : State) :
    (readTape s.tape s.ptr ≠ 0 ∧ exec .jzf s = .next (advance s)) ∨
    (readTape s.tape s.ptr = 0 ∧ ∃ j, jumpAt s.jt s.ip = some j ∧ exec .jzf s = .next (completeAt (j + 1) s)) ∨
    (readTape s.tape s.ptr = 0 ∧ jumpAt s.jt s.ip = none ∧ exec .jzf s = .fault .noJumpTarget) := by
  by_cases h : readTape s.tape s.ptr = 0
  · cases hj : jumpAt s.jt s.ip <;>
      simp [exec, execJzf, currentIsZero, currentBit_eq, takeJump, jumpTarget, h, hj]
  · have h' : ¬ readTape s.tape s.ptr = 0#1 := h
    simp [exec, execJzf, currentIsZero, currentBit_eq, h']

/-- All that JNZB can do (43_jump_ops.md R131). -/
theorem exec_jnzb_cases (s : State) :
    (readTape s.tape s.ptr = 0 ∧ exec .jnzb s = .next (advance s)) ∨
    (readTape s.tape s.ptr ≠ 0 ∧ ∃ j, jumpAt s.jt s.ip = some j ∧ exec .jnzb s = .next (completeAt (j + 1) s)) ∨
    (readTape s.tape s.ptr ≠ 0 ∧ jumpAt s.jt s.ip = none ∧ exec .jnzb s = .fault .noJumpTarget) := by
  by_cases h : readTape s.tape s.ptr = 0
  · simp [exec, execJnzb, currentIsNonzero, currentBit_eq, h]
  · have h' : ¬ readTape s.tape s.ptr = 0#1 := h
    cases hj : jumpAt s.jt s.ip <;>
      simp [exec, execJnzb, currentIsNonzero, currentBit_eq, takeJump, jumpTarget, h', hj]

/-! ## The step -/

/-- When the engine executes (44_engine_cycle.md R148, R150). -/
theorem boundary_eq_execute_iff (s : State) : boundary s = .execute ↔
    engineStarted s = true ∧ s.fault = none ∧ s.ip ≠ s.len ∧
      (s.hold ≠ none ∨ (stopRequested s = false ∧ s.cfg.stepBudget ≠ some s.steps)) := by
  unfold boundary budgetMet
  cases engineStarted s <;> cases s.fault <;> cases s.hold <;> cases stopRequested s <;>
    by_cases hip : s.ip = s.len <;> by_cases hb : s.cfg.stepBudget = some s.steps <;> simp_all

/-- Which fault a boundary raises, and when (44_engine_cycle.md R146, R147, R148). -/
theorem boundary_raise {s : State} {c : FaultCause} (h : boundary s = .raise c) :
    engineStarted s = true ∧ s.fault = none ∧ s.ip ≠ s.len ∧ s.hold = none ∧
      ((c = .cancelled ∧ stopRequested s = true) ∨
        (c = .stepBudgetExceeded ∧ stopRequested s = false ∧ s.cfg.stepBudget = some s.steps)) := by
  unfold boundary budgetMet at h
  cases he : engineStarted s <;> cases hf : s.fault <;> cases hh : s.hold <;> cases hs : stopRequested s <;>
    by_cases hip : s.ip = s.len <;> by_cases hb : s.cfg.stepBudget = some s.steps <;> simp_all

/-- All that a step can do (44_engine_cycle.md R144). -/
theorem step_next_cases {s t : State} (h : step s = .next t) :
    (boundary s = .stay ∧ t = s) ∨
    (∃ c, boundary s = .raise c ∧ t = raiseFault c s) ∨
    (∃ op, boundary s = .execute ∧ s.prog[s.ip]? = some op ∧ exec op.instr s = .next t) := by
  unfold step fetch at h
  cases hb : boundary s with
  | stay => simp_all
  | raise c => simp_all
  | execute =>
    cases hf : s.prog[s.ip]? with
    | none => simp [hb, hf] at h
    | some op => exact .inr (.inr ⟨op, rfl, rfl, by simpa [hb, hf] using h⟩)

/-- A step at a boundary that executes is the fetched instruction. -/
theorem step_of_execute {s : State} {op : Operation} (hb : boundary s = .execute) (hf : s.prog[s.ip]? = some op) :
    step s = exec op.instr s := by
  simp [step, fetch, hb, hf]

end Sys2Proof.Machine
end

