-- ==== Sys2Proof/Laws/PerInstr.lean ====
section
/-! SUPPORT. Statements about every instruction as syntax, one lemma per constructor. -/

namespace Sys2Proof.Laws

/-! ## EncodeDecode: the encoding is one character that decodes to the instruction, and a table row's bits are it -/

/-- The encoding of `i` is one character; it decodes to `i`, alone and as a table word (30_encoding.md R61, R62, R64). -/
def EncodeDecode.Statement (i : Instr) : Prop :=
  i.wellFormed = true ∧ encode i = [charCode i] ∧ decodeChar (charCode i) = .command i ∧ decodeText (encode i) = [i] ∧
    decodeTableWord 8 (charCode i).toNat = some i

theorem EncodeDecode.tglPlus : EncodeDecode.Statement .tglPlus := by unfold EncodeDecode.Statement; decide
theorem EncodeDecode.inBit : EncodeDecode.Statement .inBit := by unfold EncodeDecode.Statement; decide
theorem EncodeDecode.tglMinus : EncodeDecode.Statement .tglMinus := by unfold EncodeDecode.Statement; decide
theorem EncodeDecode.outBit : EncodeDecode.Statement .outBit := by unfold EncodeDecode.Statement; decide
theorem EncodeDecode.left : EncodeDecode.Statement .left := by unfold EncodeDecode.Statement; decide
theorem EncodeDecode.right : EncodeDecode.Statement .right := by unfold EncodeDecode.Statement; decide
theorem EncodeDecode.jzf : EncodeDecode.Statement .jzf := by unfold EncodeDecode.Statement; decide
theorem EncodeDecode.jnzb : EncodeDecode.Statement .jnzb := by unfold EncodeDecode.Statement; decide

end Sys2Proof.Laws
end

