-- ==== Sys2Proof/Tests/Slice0.lean ====
section
/-! SUPPORT. Our own tests: the checks of WellFormed refuse ill-formed terms, the eight characters decode, one step of each
instruction does what the worked examples of the spec say, and for every statement a state that meets its hypotheses. -/

namespace Sys2Proof.Tests

open Sys2Proof.Machine

/-! ## Helpers -/

/-- A started engine with a Program, at index 0. -/
def runningState (prog : List Operation) (jt : List (Option Nat)) : State :=
  { State.reset with prog := prog, jt := jt, ldState := .loaded, started := true }

/-- The next state, if there is one. -/
def nextOf : Host.Outcome State Fault Refusal → Option State
  | .next t => some t
  | .fault _ => none
  | .refused _ => none

/-- One `.`, `,` or `+` alone. -/
def oneToggle : State := runningState [.toggleBit] [none]
def oneIn : State := runningState [.readBit] [none]
def oneOut : State := runningState [.writeBit] [none]

/-- `[]` at its `[`, and at its `]`. -/
def atOpen : State := runningState [.jumpIfZeroForward, .jumpIfNonZeroBackward] [some 1, some 0]
def atClose : State := { atOpen with ip := 1 }

/-- The bounded configuration of 95_test_vectors.md section 2.6. -/
def bounded : Cfg := { Cfg.reference with ptrMin := some (-4), ptrMax := some 3 }

/-! ## WellFormed: an ill-formed term for each check -/

theorem test_ptr_min_above_zero_refused : ¬ Cfg.MinOk { Cfg.reference with ptrMin := some 1 } := by decide
theorem test_ptr_max_below_zero_refused : ¬ Cfg.MaxOk { Cfg.reference with ptrMax := some (-1) } := by decide
theorem test_reference_is_legal : Cfg.Legal Cfg.reference := by decide

/-- R85 item 1: a bracket without an entry, an entry without a bracket, a table of the wrong length. -/
theorem test_entries_at_brackets_refuses :
    ¬ EntriesAtBrackets [.jumpIfZeroForward] [none] ∧ ¬ EntriesAtBrackets [.toggleBit] [some 0] ∧
      ¬ EntriesAtBrackets [.toggleBit] [] := by decide

/-- R85 item 2: a forward bracket linked to itself. -/
theorem test_forward_links_refuses : ¬ ForwardLinks [.jumpIfZeroForward] [some 0] := by decide

/-- R85 item 3: a backward bracket linked to a later operation. -/
theorem test_backward_links_refuses : ¬ BackwardLinks [.jumpIfNonZeroBackward, .toggleBit] [some 1, none] := by decide

/-- R85 item 4: two forward brackets linked to one `]`. -/
theorem test_links_paired_refuses :
    ¬ LinksPaired [.jumpIfZeroForward, .jumpIfZeroForward, .jumpIfNonZeroBackward] [some 2, some 2, some 1] := by decide

/-- R85 item 5: crossed pairs. -/
theorem test_links_nested_refuses :
    ¬ LinksNested [.jumpIfZeroForward, .jumpIfZeroForward, .jumpIfNonZeroBackward, .jumpIfNonZeroBackward]
      [some 2, some 3, some 0, some 1] := by decide

/-- R85 item 6: an entry outside the store. -/
theorem test_links_in_range_refuses : ¬ LinksInRange [.jumpIfZeroForward] [some 1] := by decide

/-- `+[>+<+]` with the table of 40_loader_bracket_table.md section 5. -/
theorem test_program_ok : ProgramOk
    [.toggleBit, .jumpIfZeroForward, .moveRight, .toggleBit, .moveLeft, .toggleBit, .jumpIfNonZeroBackward]
    [none, some 6, none, none, none, none, some 1] := by decide

/-! ## Decode: the words written bit by bit from 30_encoding.md R62 -/

theorem test_decode_plus : decodeTableWord 8 0b00101011 = some .tglPlus := by decide
theorem test_decode_comma : decodeTableWord 8 0b00101100 = some .inBit := by decide
theorem test_decode_minus : decodeTableWord 8 0b00101101 = some .tglMinus := by decide
theorem test_decode_dot : decodeTableWord 8 0b00101110 = some .outBit := by decide
theorem test_decode_less : decodeTableWord 8 0b00111100 = some .left := by decide
theorem test_decode_greater : decodeTableWord 8 0b00111110 = some .right := by decide
theorem test_decode_open : decodeTableWord 8 0b01011011 = some .jzf := by decide
theorem test_decode_close : decodeTableWord 8 0b01011101 = some .jnzb := by decide

/-- 95_test_vectors.md section 2.1: the neighbours of the command codes, and the codes with bit 7 set. -/
theorem test_neighbours_are_skipped :
    ∀ c ∈ ([0x3B, 0x20, 0x0A, 0x00, 0x2A, 0x2F, 0x3D, 0x5C, 0x7B, 0x7D, 0xAB, 0xAD, 0xDB, 0xDD] : List Byte),
      decodeChar c = .skip := by decide

/-! ## One step of each instruction (examples of the rules; 95_test_vectors.md sections 2.3 to 2.5) -/

theorem test_plus_at_minus_seven :
    (nextOf (exec .tglPlus { oneToggle with ptr := -7, tape := [(-8, 1)] })).map (fun t => (t.tape, t.ip, t.steps))
      = some ([(-8, 1), (-7, 1)], 1, 1) := by decide

theorem test_plus_clears_a_one :
    (nextOf (exec .tglPlus { oneToggle with tape := [(0, 1)] })).map (·.tape) = some [] := by decide

theorem test_minus_sets_a_zero : (nextOf (exec .tglMinus oneToggle)).map (·.tape) = some [(0, 1)] := by decide

theorem test_minus_clears_a_one :
    (nextOf (exec .tglMinus { oneToggle with ptr := 5, tape := [(5, 1)] })).map (·.tape) = some [] := by decide

theorem test_left_below_zero : (nextOf (exec .left State.reset)).map (·.ptr) = some (-1) := by decide

theorem test_left_at_ptr_min :
    (nextOf (exec .left { State.reset with cfg := { Cfg.reference with ptrMin := some 0 } })).map
      (fun t => (t.fault, t.ptr, t.ip, t.steps)) = some (some .tapeRange, 0, 0, 0) := by decide

theorem test_right_to_ptr_max :
    (nextOf (exec .right { State.reset with ptr := 6, cfg := { Cfg.reference with ptrMax := some 7 } })).map
      (fun t => (t.fault, t.ptr)) = some (none, 7) := by decide

theorem test_right_at_ptr_max :
    (nextOf (exec .right { State.reset with ptr := 7, cfg := { Cfg.reference with ptrMax := some 7 } })).map
      (fun t => (t.fault, t.ptr, t.ip, t.steps)) = some (some .tapeRange, 7, 0, 0) := by decide

theorem test_in_buffered_bit_one :
    (nextOf (exec .inBit { oneIn with inBuf := 0x02, inRem := 7, tape := [(0, 1)] })).map
      (fun t => (t.tape, t.inRem, t.inBuf)) = some ([(0, 1)], 6, 0x02) := by decide

theorem test_in_pulls_a_byte :
    (nextOf (exec .inBit { oneIn with host := { HostSide.quiet with inp := [0x02] }, tape := [(0, 1)] })).map
      (fun t => (t.tape, t.inBuf, t.inRem, t.inCur)) = some ([], 0x02, 7, 1) := by decide

theorem test_out_packs_bit_three :
    (nextOf (exec .outBit { oneOut with tape := [(0, 1)], outBuf := 0x05, outCnt := 3 })).map
      (fun t => (t.outBuf, t.outCnt, t.out, t.tape)) = some (0x0D, 4, [], [(0, 1)]) := by decide

theorem test_out_pushes_the_byte :
    (nextOf (exec .outBit { oneOut with outBuf := 0x7F, outCnt := 7 })).map
      (fun t => (t.outBuf, t.outCnt, t.outCur, t.out)) = some (0x00, 0, 1, [0x7F]) := by decide

theorem test_jzf_taken : (nextOf (exec .jzf atOpen)).map (·.ip) = some 2 := by decide

theorem test_jzf_not_taken : (nextOf (exec .jzf { atOpen with tape := [(0, 1)] })).map (·.ip) = some 1 := by decide

/-- The taken `]` of an empty loop lands on itself, and is one step (43_jump_ops.md R131). -/
theorem test_jnzb_taken :
    (nextOf (exec .jnzb { atClose with tape := [(0, 1)] })).map (fun t => (t.ip, t.steps)) = some (1, 1) := by decide

theorem test_jnzb_not_taken : (nextOf (exec .jnzb atClose)).map (·.ip) = some 2 := by decide

/-! ## The engine, the loader and the host -/

/-- A power-on engine stays as it is; a placed word runs on the very next step. -/
theorem test_power_on_step : step State.reset = .next State.reset := rfl

theorem test_placed_close_bracket :
    (nextOf (step (State.reset.withFetchWord 8 0x5D))).map (fun t => (t.ip, t.steps)) = some (2, 1) := by decide

/-- 44_engine_cycle.md R148: a stop request wins over the budget. -/
theorem test_stop_wins_over_budget :
    (nextOf (step { oneToggle with
      cfg := { Cfg.reference with stepBudget := some 0 }, host := { HostSide.quiet with stop := ⟨[], true⟩ } })).map
      (·.fault) = some (some .cancelled) := by decide

/-- 40_loader_bracket_table.md section 5: `[][]`, `[[]`, `[]]`, and `+]` with PROG_MAX = 1 (95_test_vectors.md 2.2). -/
theorem test_load_two_loops :
    (loadText none [0x5B, 0x5D, 0x5B, 0x5D]).toOption.map (·.2) = some [some 1, some 0, some 3, some 2] := by decide
theorem test_load_unclosed : loadText none [0x5B, 0x5B, 0x5D] = .error (.unmatchedForward, 0) := rfl
theorem test_load_overclosed : loadText none [0x5B, 0x5D, 0x5D] = .error (.unmatchedBackward, 2) := rfl
theorem test_load_too_long : loadText (some 1) [0x2B, 0x5D] = .error (.programTooLong, 1) := rfl

/-- 42_io_ops.md, 95_test_vectors.md S5: `,.` on input 0x01 halts and emits nothing. -/
theorem test_invoke_echo_one_bit :
    invoke 3 Cfg.reference [0x2C, 0x2E] { HostSide.quiet with inp := [0x01] } = some ([], .halted) := by decide

/-! ## Witnesses: for each statement with hypotheses, values that meet them, clause by clause -/

theorem witness_SymbolCodesDecode :
    (0x2A : Byte) ∉ commandCodes ∧ (0x2F : Byte) ∉ commandCodes ∧ (0x5C : Byte) ∉ commandCodes ∧
      (0xAB : Byte) ∉ commandCodes := by decide

/-- `a+ [b]` spells `+[]`. -/
theorem witness_CommentedTextDecodesToItsInstructions :
    ([0x61, 0x2B, 0x20, 0x5B, 0x62, 0x5D] : List Byte).filter (fun c => decide (c ∈ commandCodes))
      = [Instr.tglPlus, .jzf, .jnzb].flatMap encode := by decide

theorem witness_NonCommandCharacterIsSkipped : (0x3B : Byte) ∉ commandCodes := by decide

theorem witness_TapeReadsTheLastWrite :
    tapeWf [(-1, 1), (3, 1)] ∧ writeTape [(-1, 1), (3, 1)] 3 0 = [(-1, 1)] ∧
      writeTape [(-1, 1), (3, 1)] 0 1 = [(-1, 1), (0, 1), (3, 1)] := by decide

theorem witness_CanonicalTapesThatReadAlikeAreEqual :
    tapeWf [(-1, 1), (3, 1)] ∧ tapeWf (writeTape [(-1, 1)] 3 1) ∧
      ∀ a : Int, readTape [(-1, 1), (3, 1)] a = readTape (writeTape [(-1, 1)] 3 1) a :=
  ⟨by decide, by decide, fun _ => rfl⟩

theorem witness_TogglesFlipOnlyTheCurrentBit : tapeWf { oneToggle with tape := [(-2, 1)] }.tape := by decide

theorem witness_RepeatedTogglesKeepParity : tapeWf { oneToggle with tape := [(0, 1)] }.tape := by decide

/-- One above PTR_MIN and at PTR_MIN; unbounded. -/
theorem witness_LeftMovesDownOrRaisesTapeRange :
    (∀ m ∈ { State.reset with cfg := bounded, ptr := -3 }.cfg.ptrMin, m ≤ (-3 : Int) - 1) ∧
      (∃ m ∈ { State.reset with cfg := bounded, ptr := -4 }.cfg.ptrMin, (-4 : Int) - 1 < m) ∧
      (∀ m ∈ State.reset.cfg.ptrMin, m ≤ State.reset.ptr - 1) :=
  ⟨by decide, ⟨-4, rfl, by decide⟩, by decide⟩

/-- One below PTR_MAX and at PTR_MAX; unbounded. -/
theorem witness_RightMovesUpOrRaisesTapeRange :
    (∀ m ∈ { State.reset with cfg := bounded, ptr := 2 }.cfg.ptrMax, (2 : Int) + 1 ≤ m) ∧
      (∃ m ∈ { State.reset with cfg := bounded, ptr := 3 }.cfg.ptrMax, m < (3 : Int) + 1) ∧
      (∀ m ∈ State.reset.cfg.ptrMax, State.reset.ptr + 1 ≤ m) :=
  ⟨by decide, ⟨3, rfl, by decide⟩, by decide⟩

theorem witness_InDeliversTheNextBufferedBit :
    (tapeWf { oneIn with inRem := 1 }.tape ∧ 1 ≤ { oneIn with inRem := 1 }.inRem ∧ { oneIn with inRem := 1 }.inRem ≤ 7) ∧
      (tapeWf { oneIn with inRem := 7 }.tape ∧ 1 ≤ { oneIn with inRem := 7 }.inRem ∧ { oneIn with inRem := 7 }.inRem ≤ 7) := by decide

/-- A host with one byte, which it delivers at the third attempt. -/
def slowHost : HostSide := { HostSide.quiet with inp := [0x02], inDelay := ⟨[some 2], some 0⟩ }

theorem witness_InPullsTheNextByteWhenExhausted :
    let s : State := { oneIn with host := slowHost, hold := some 2 }
    tapeWf s.tape ∧ s.inRem = 0 ∧ s.inEos = false ∧ hostAnswersPull s = true ∧ s.host.inp[s.inCur]? = some 0x02 := by
  decide

/-- The end of the input known before, and found now. -/
theorem witness_InDeliversEofBitAtEndOfInput :
    (tapeWf { oneIn with inEos := true }.tape ∧ { oneIn with inEos := true }.inRem = 0 ∧
      { oneIn with inEos := true }.inEos = true) ∧
    (tapeWf oneIn.tape ∧ oneIn.inRem = 0 ∧ hostAnswersPull oneIn = true ∧ oneIn.host.inp[oneIn.inCur]? = none) := by
  decide

theorem witness_InHoldsUntilTheHostAnswers :
    (let s : State := { oneIn with host := slowHost };
      s.inRem = 0 ∧ s.inEos = false ∧ hostAnswersPull s = false) ∧
    (let s : State := { oneIn with host := slowHost, hold := some 1 };
      s.ldState = .loaded ∧ s.started = true ∧ s.fault = none ∧ s.hold ≠ none ∧ s.prog[s.ip]? = some .readBit) := by
  decide

/-- A started engine in the middle of a run of `,.`, with three bits of its one byte delivered. -/
def midByte : State :=
  { runningState [.readBit, .writeBit] [none, none] with
    host := { HostSide.quiet with inp := [0xA5, 0x3C] }, inBuf := 0xA5, inRem := 5, inCur := 1, outBuf := 0x05, outCnt := 3,
    tape := [(0, 1)], steps := 6 }

theorem runInv_midByte : RunInv midByte where
  ip_le := by decide
  ptr_range := by decide
  in_rem_le := by decide
  in_cur_le := by decide
  in_buf_last := by decide
  in_eos_end := by decide
  out_cnt_le := by decide
  out_buf_clear := by decide
  out_cur_len := by decide
  fault_step := by decide
  hold_in := by decide
  steps_le := by decide

/-- `k = 3`, and at a byte boundary `k = 8`. -/
theorem witness_DeliveredBitsFollowTheInput :
    (tapeWf midByte.tape ∧ RunInv midByte ∧ (midByte.inRem = 0 → hostAnswersPull midByte = true) ∧
      midByte.host.inp[bitsDelivered midByte / 8]? = some 0xA5 ∧ bitsDelivered midByte = 3) ∧
    (let s : State := { midByte with inRem := 0 };
      tapeWf s.tape ∧ RunInv s ∧ (s.inRem = 0 → hostAnswersPull s = true) ∧ s.host.inp[bitsDelivered s / 8]? = some 0x3C ∧ bitsDelivered s = 8) :=
  ⟨⟨by decide, runInv_midByte, by decide, by decide, by decide⟩, by decide,
    ⟨by decide, by decide, by decide, by decide, by decide, by decide, by decide, by decide, by decide, by decide, by decide,
      by decide⟩, by decide, by decide, by decide⟩

/-- The packer at 6 bits, and at 7 bits with the push taken and refused. -/
theorem witness_OutPacksPushesOrRaisesOutputUnwritable :
    (let s : State := { oneOut with tape := [(0, 1)], outBuf := 0x3F, outCnt := 6 };
      (∀ k < 8, (0x7F : Byte).getLsbD k =
        if k = s.outCnt then decide (readTape s.tape s.ptr = 1) else s.outBuf.getLsbD k) ∧ s.outCnt < 7) ∧
    (let s : State := { oneOut with tape := [(0, 1)], outBuf := 0x7F, outCnt := 7 };
      (∀ k < 8, (0xFF : Byte).getLsbD k =
        if k = s.outCnt then decide (readTape s.tape s.ptr = 1) else s.outBuf.getLsbD k) ∧
      s.outCnt = 7 ∧ outPush 0xFF s = .ok) ∧
    (let s : State := { oneOut with outBuf := 0x7F, outCnt := 7, host := { HostSide.quiet with outAnswer := ⟨[], .fail⟩ } };
      (∀ k < 8, (0x7F : Byte).getLsbD k =
        if k = s.outCnt then decide (readTape s.tape s.ptr = 1) else s.outBuf.getLsbD k) ∧
      s.outCnt = 7 ∧ outPush 0x7F s = .fail) := by decide

theorem witness_EightWrittenBitsEmitTheirByte :
    oneOut.outBuf = 0x00 ∧ oneOut.outCnt = 0 ∧ outPush 0xA5 oneOut = .ok := by decide

theorem witness_WrittenBitsCountCompletedOuts :
    midByte.outCnt ≤ 7 ∧ { midByte with outCnt := 7 }.outCnt ≤ 7 ∧ (nextOf (exec .outBit midByte)).isSome := by decide

theorem witness_JzfJumpsPastItsMatchOnZero :
    (1 ∈ jumpAt atOpen.jt atOpen.ip ∧ readTape atOpen.tape atOpen.ptr = 0) ∧
      readTape { atOpen with tape := [(0, 1)] }.tape { atOpen with tape := [(0, 1)] }.ptr ≠ 0 := by decide

theorem witness_JnzbJumpsIntoItsLoopOnNonzero :
    (0 ∈ jumpAt atClose.jt atClose.ip ∧ readTape [(0, 1)] atClose.ptr ≠ 0) ∧ readTape atClose.tape atClose.ptr = 0 := by
  decide

theorem witness_JumpTargetsAreInRange :
    (ProgramOk atOpen.prog atOpen.jt ∧ atOpen.prog[atOpen.ip]? = some Instr.jzf.operation) ∧
      (ProgramOk atClose.prog atClose.jt ∧ atClose.prog[atClose.ip]? = some Instr.jnzb.operation) :=
  ⟨⟨by decide, rfl⟩, by decide, rfl⟩

theorem witness_RuledOutStatesStopByName :
    (jumpAt { atOpen with jt := [none, some 0] }.jt 0 = none ∧ readTape atOpen.tape atOpen.ptr = 0) ∧
    (jumpAt { atClose with jt := [some 1] }.jt 1 = none ∧ readTape [(0, 1)] atClose.ptr ≠ 0) ∧
    (let s : State := { atOpen with ip := 3 };
      s.ldState = .loaded ∧ s.started = true ∧ s.fault = none ∧ s.len < s.ip ∧ stopRequested s = false ∧
        s.cfg.stepBudget ≠ some s.steps) := by decide

/-- The toggle as `+` and as `-`. -/
theorem witness_StepRunsTheFetchedInstruction :
    let s := oneToggle
    s.ldState = .loaded ∧ s.started = true ∧ s.fault = none ∧ s.hold = none ∧ stopRequested s = false ∧
      s.cfg.stepBudget ≠ some s.steps ∧ s.prog[s.ip]? = some Instr.tglPlus.operation ∧
      s.prog[s.ip]? = some Instr.tglMinus.operation := by decide

/-- A started engine at a step boundary. -/
abbrev AtBoundary (s : State) : Prop := s.ldState = .loaded ∧ s.started = true ∧ s.fault = none ∧ s.hold = none

/-- `ip = len`; a stop request; a budget just met; none of them, one step below the budget. -/
theorem witness_BoundaryChecksInOrder :
    (AtBoundary { oneToggle with ip := 1 } ∧ { oneToggle with ip := 1 }.ip = oneToggle.len) ∧
    (let s : State := { oneToggle with host := { HostSide.quiet with stop := ⟨[], true⟩ } };
      AtBoundary s ∧ s.ip < s.len ∧ stopRequested s = true) ∧
    (let s : State := { oneToggle with cfg := { Cfg.reference with stepBudget := some 2 }, steps := 2 };
      AtBoundary s ∧ s.ip < s.len ∧ stopRequested s = false ∧ s.cfg.stepBudget = some s.steps) ∧
    (let s : State := { oneToggle with cfg := { Cfg.reference with stepBudget := some 2 }, steps := 1 };
      AtBoundary s ∧ Operation.toggleBit ∈ s.prog[s.ip]? ∧ stopRequested s = false ∧ s.cfg.stepBudget ≠ some s.steps) :=
  ⟨by decide, by decide, by decide, by decide⟩

theorem witness_FaultedEngineStaysUnchanged : { oneToggle with fault := some .cancelled }.fault ≠ none := by decide

theorem witness_UnstartedEngineStaysUnchanged :
    State.reset.ldState ≠ .loaded ∧ { oneToggle with started := false }.started = false := by decide

theorem witness_FaultEntryChangesOnlyFault :
    let s : State := { runningState [.moveLeft] [none] with cfg := { Cfg.reference with ptrMin := some 0 } }
    step s = .next { s with fault := some .tapeRange } ∧ { s with fault := some .tapeRange }.fault ≠ s.fault :=
  ⟨rfl, by decide⟩

/-- A step that completes, one that faults, one that waits and one that stays. -/
theorem witness_StepEffectIsBounded :
    (tapeWf midByte.tape ∧ (nextOf (step midByte)).map (·.steps) = some 7) ∧
    (nextOf (step { oneToggle with cfg := { Cfg.reference with stepBudget := some 0 } })).map (·.fault)
      = some (some .stepBudgetExceeded) ∧
    (nextOf (step { oneIn with host := slowHost })).map (·.hold) = some (some 1) ∧
    step State.reset = .next State.reset := ⟨by decide, by decide, by decide, rfl⟩

theorem witness_StepsNeverWriteTheProgram : (nextOf (step midByte)).isSome := by decide

theorem witness_InstructionFaultsAreTheListedOnes : (nextOf (exec .outBit midByte)).isSome := by decide

theorem witness_StreamsAreNeverRewound : (nextOf (step { midByte with ip := 1, outCnt := 7 })).map (·.out) = some [0x85] := by
  decide

theorem inv_midByte : Inv midByte where
  tape_canonical := by decide
  cfg_legal := by decide
  program_ok := fun _ => by decide
  run_inv := fun _ => runInv_midByte

/-- The two hypotheses of the invariant's statement together, at a state in the middle of a run. -/
theorem witness_StepKeepsTheInvariant : Inv midByte ∧ (nextOf (step midByte)).isSome := ⟨inv_midByte, by decide⟩

theorem witness_LegalMachineAlwaysStepsOn : Inv midByte := inv_midByte

/-- `+[]` with a budget of 5 (95_test_vectors.md S7), loaded and not started. -/
def toggleLoop : State :=
  { State.reset with
    prog := [.toggleBit, .jumpIfZeroForward, .jumpIfNonZeroBackward], jt := [none, some 2, some 1], ldState := .loaded,
    cfg := { Cfg.reference with stepBudget := some 5 } }

theorem witness_BudgetBoundsExecutedInstructions :
    toggleLoop.ldState = .loaded ∧ toggleLoop.cfg.stepBudget = some 5 ∧
      (nextOf (runSteps 6 (start HostSide.quiet toggleLoop))).map (fun t => (t.steps, t.fault))
        = some (5, some .stepBudgetExceeded) := by decide

theorem witness_BudgetedRunEnds :
    toggleLoop.ldState = .loaded ∧ ProgramOk toggleLoop.prog toggleLoop.jt ∧ toggleLoop.cfg.Legal ∧
      toggleLoop.cfg.stepBudget = some 5 ∧ ∀ k : Nat, scheduleAt HostSide.quiet.inDelay k = some 0 :=
  ⟨rfl, by decide, by decide, rfl, fun _ => rfl⟩

/-- `a[b]c` (40_loader_bracket_table.md section 5). -/
theorem witness_LoadedStoreIsTheTextsCommands :
    loadText none [0x61, 0x5B, 0x62, 0x5D, 0x63]
      = .ok ([.jumpIfZeroForward, .jumpIfNonZeroBackward], [some 1, some 0]) := rfl

theorem witness_LoadedProgramIsWellFormed :
    loadText (some 3) [0x2B, 0x5B, 0x5D]
      = .ok ([.toggleBit, .jumpIfZeroForward, .jumpIfNonZeroBackward], [none, some 2, some 1]) := rfl

/-- A LOAD that succeeds and one that fails, while the engine is not Running. -/
theorem witness_LoadSetsTheStatusAndLeavesTheRun :
    runState State.reset ≠ some .running ∧ runState { oneToggle with ip := 1 } ≠ some .running ∧
      (loadText State.reset.cfg.progMax [0x2B]).toOption.isSome ∧
      loadText State.reset.cfg.progMax [0x5D] = .error (.unmatchedBackward, 0) :=
  ⟨by decide, by decide, by decide, rfl⟩

theorem witness_LoadKeepsTheInvariant :
    Inv { midByte with fault := some .cancelled } ∧ (nextOf (load [0x2B] { midByte with fault := some .cancelled })).isSome :=
  ⟨⟨by decide, by decide, fun _ => by decide, fun _ =>
    ⟨by decide, by decide, by decide, by decide, by decide, by decide, by decide, by decide, by decide, by decide, by decide,
      by decide⟩⟩, by decide⟩

theorem witness_StartResetsOrIsRefused : midByte.ldState = .loaded ∧ State.reset.ldState ≠ .loaded := by decide

/-- A Program with instructions and the empty one. -/
theorem witness_StartBeginsALegalRun :
    (toggleLoop.cfg.Legal ∧ toggleLoop.ldState = .loaded ∧ ProgramOk toggleLoop.prog toggleLoop.jt ∧ toggleLoop.len ≠ 0) ∧
    (let s : State := { State.reset with ldState := .loaded };
      s.cfg.Legal ∧ s.ldState = .loaded ∧ ProgramOk s.prog s.jt ∧ s.len = 0) :=
  ⟨⟨by decide, rfl, by decide, by decide⟩, by decide, rfl, by decide, rfl⟩

theorem witness_TextWithoutCommandsHaltsAtOnce : ∀ ch ∈ ([0x68, 0x69, 0x3B, 0x00] : List Byte), ch ∉ commandCodes := by
  decide

/-- Each hypothesis, and each kind of outcome below it. -/
theorem witness_ExitStatusTellsTheOutcome :
    State.reset.ldState = .unloaded ∧
    (let s : State := { State.reset with ldState := .loadFailed, errKind := .programTooLong };
      s.ldState = .loadFailed ∧ exitStatus s = some (2, 5)) ∧
    (midByte.ldState = .loaded ∧ midByte.started = true ∧ exitStatus midByte = none) ∧
    exitStatus { midByte with ip := 2 } = some (0, 0) ∧
    exitStatus { midByte with ip := 2, fault := some .tapeRange } = some (2, 4) := by decide

theorem witness_HostOperationsAreRefusedWhileRunning :
    runState midByte = some .running ∧
    (runState State.reset ≠ some .running ∧ bounded.Legal) ∧
    (runState State.reset ≠ some .running ∧ ¬ { Cfg.reference with ptrMin := some 1 }.Legal) := by decide

theorem witness_PlacedWordIsTheNextInstruction :
    decodeTableWord 8 0x2C = some .inBit ∧ decodeTableWord 16 0x5B = some .jzf := by decide

end Sys2Proof.Tests
end

section
/-! PROOFS. The state and its invariant: what an instruction and a step can do to the state as a whole, and the statements
about the tape's form, the frames of a step, the invariant, reset and the host's view (10_state.md). -/

namespace Sys2Proof.Machine

/-! ## What an instruction can do -/

/-- What instruction `i` does to the state before it completes: one constructor per way an instruction can complete
(41_tape_ops.md R100 to R103, 42_io_ops.md R111 to R115, 43_jump_ops.md R130, R131). -/
inductive InstrWork (s : State) : Instr → State → Prop
  | toggle {i : Instr} (hi : i = .tglPlus ∨ i = .tglMinus) : InstrWork s i (toggleCurrent s)
  | left (hrange : ∀ m ∈ s.cfg.ptrMin, m ≤ s.ptr - 1) : InstrWork s .left (setPtr (s.ptr - 1) s)
  | right (hrange : ∀ m ∈ s.cfg.ptrMax, s.ptr + 1 ≤ m) : InstrWork s .right (setPtr (s.ptr + 1) s)
  | inBuffered (hrem : s.inRem ≠ 0) :
      InstrWork s .inBit (writeCurrent (bitOf s.inBuf (8 - s.inRem)) (dropInputBit s))
  | inKnownEnd (hrem : s.inRem = 0) (heos : s.inEos = true) : InstrWork s .inBit (writeCurrent s.cfg.eofBit s)
  | inByte {b : Byte} (heos : s.inEos = false) (hb : s.host.inp[s.inCur]? = some b) :
      InstrWork s .inBit (writeCurrent (bitOf b 0) (dropInputBit (takeByte b s)))
  | inEnd (hrem : s.inRem = 0) (hend : s.host.inp[s.inCur]? = none) :
      InstrWork s .inBit (writeCurrent s.cfg.eofBit (takeEos s))
  | outPack (hcnt : s.outCnt < 7) : InstrWork s .outBit (packBit (withBit s.outBuf s.outCnt (currentBit s)) s)
  | outPush (hcnt : 7 ≤ s.outCnt) : InstrWork s .outBit (pushByte (withBit s.outBuf s.outCnt (currentBit s)) s)
  | bracket {i : Instr} (hi : i = .jzf ∨ i = .jnzb) : InstrWork s i s

/-- The faults an instruction can raise (60_exceptions.md R184). -/
def CanRaise (i : Instr) (c : FaultCause) : Prop :=
  ((i = .left ∨ i = .right) ∧ c = .tapeRange) ∨ (i = .outBit ∧ c = .outputUnwritable)

/-- Where an instruction that completes can leave `ip`: one further, or past the linked bracket (44_engine_cycle.md R143). -/
def NextIp (s : State) (n : Nat) : Prop := n = s.ip + 1 ∨ ∃ j, jumpAt s.jt s.ip = some j ∧ n = j + 1

/-- The next states of an instruction: a fault, a held IN, or a completion (44_engine_cycle.md R144, R150). -/
inductive ExecEffect (s : State) (i : Instr) : State → Prop
  | faults {c : FaultCause} (hc : CanRaise i c) : ExecEffect s i (raiseFault c s)
  | holds (hi : i = .inBit) (hrem : s.inRem = 0) (heos : s.inEos = false) : ExecEffect s i (holdInput s)
  | completes {u : State} {n : Nat} (w : InstrWork s i u) (hn : NextIp s n) : ExecEffect s i (completeAt n u)

namespace InstrWork

variable {s u : State} {i : Instr}

/-- No work writes the Program, the load status, `cfg` or the host's side (10_state.md R14, R15, R22, R23). -/
theorem sameProgram (w : InstrWork s i u) : SameProgram s u := by
  cases w <;> constructor <;> rfl

theorem ip_eq (w : InstrWork s i u) : u.ip = s.ip := by cases w <;> rfl

theorem steps_eq (w : InstrWork s i u) : u.steps = s.steps := by cases w <;> rfl

theorem fault_eq (w : InstrWork s i u) : u.fault = s.fault := by cases w <;> rfl

/-- An instruction that has done its work may go on to the next index. -/
theorem effect_advance (w : InstrWork s i u) : ExecEffect s i (advance u) := by
  have hadv : advance u = completeAt (s.ip + 1) u := by rw [advance, w.ip_eq]
  exact hadv ▸ .completes w (.inl rfl)

end InstrWork

/-- The bit that `read_bit()` delivers, stored at the pointer, is the work of IN. -/
theorem instrWork_of_readBit {s u : State} {v : Bit} (h : readBit s = some (v, u)) :
    InstrWork s .inBit (writeCurrent v u) := by
  rcases readBit_cases s with ⟨hrem, hr⟩ | ⟨hrem, heos, hr⟩ | ⟨-, heos, -, b, hb, hr⟩ | ⟨hrem, -, -, hend, hr⟩ |
    ⟨-, -, -, hr⟩ <;> rw [hr] at h <;> cases h
  · exact .inBuffered hrem
  · exact .inKnownEnd hrem heos
  · exact .inByte heos hb
  · exact .inEnd hrem hend

/-- `read_bit()` waits only where it needs a new byte (44_engine_cycle.md R150). -/
theorem needsByte_of_readBit_none {s : State} (h : readBit s = none) : s.inRem = 0 ∧ s.inEos = false := by
  rcases readBit_cases s with ⟨-, hr⟩ | ⟨-, -, hr⟩ | ⟨-, -, -, b, -, hr⟩ | ⟨-, -, -, -, hr⟩ | ⟨hrem, heos, -, -⟩
  case inr.inr.inr.inr => exact ⟨hrem, heos⟩
  all_goals rw [hr] at h; cases h

/-- `write_bit(T[P])` that raises nothing is the work of OUT. -/
theorem instrWork_of_writeBit {s u : State} (h : writeBit (currentBit s) s = some u) : InstrWork s .outBit u := by
  rcases writeBit_cases (currentBit s) s with ⟨hcnt, hw⟩ | ⟨hcnt, -, hw⟩ | ⟨-, -, hw⟩ <;> rw [hw] at h <;> cases h
  · exact .outPack hcnt
  · exact .outPush hcnt

/-- All that an instruction can do, for every instruction. -/
theorem exec_effect {i : Instr} {s t : State} (h : exec i s = .next t) : ExecEffect s i t := by
  cases i with
  | tglPlus =>
    cases (exec_toggle (.inl rfl) s).symm.trans h
    exact (InstrWork.toggle (.inl rfl)).effect_advance
  | tglMinus =>
    cases (exec_toggle (.inr rfl) s).symm.trans h
    exact (InstrWork.toggle (.inr rfl)).effect_advance
  | inBit =>
    rcases exec_inBit_cases s with ⟨v, u, hr, he⟩ | ⟨hr, he⟩ <;> cases he.symm.trans h
    · exact (instrWork_of_readBit hr).effect_advance
    · obtain ⟨hrem, heos⟩ := needsByte_of_readBit_none hr
      exact .holds rfl hrem heos
  | outBit =>
    rcases exec_outBit_cases s with ⟨u, hw, he⟩ | ⟨-, he⟩ <;> cases he.symm.trans h
    · exact (instrWork_of_writeBit hw).effect_advance
    · exact .faults (.inr ⟨rfl, rfl⟩)
  | left =>
    rcases exec_left_cases s with ⟨-, he⟩ | ⟨hrange, he⟩ <;> cases he.symm.trans h
    · exact .faults (.inl ⟨.inl rfl, rfl⟩)
    · exact (InstrWork.left hrange).effect_advance
  | right =>
    rcases exec_right_cases s with ⟨-, he⟩ | ⟨hrange, he⟩ <;> cases he.symm.trans h
    · exact .faults (.inl ⟨.inr rfl, rfl⟩)
    · exact (InstrWork.right hrange).effect_advance
  | jzf =>
    rcases exec_jzf_cases s with ⟨-, he⟩ | ⟨-, j, hj, he⟩ | ⟨-, -, he⟩ <;> cases he.symm.trans h
    · exact (InstrWork.bracket (.inl rfl)).effect_advance
    · exact .completes (.bracket (.inl rfl)) (.inr ⟨j, hj, rfl⟩)
  | jnzb =>
    rcases exec_jnzb_cases s with ⟨-, he⟩ | ⟨-, j, hj, he⟩ | ⟨-, -, he⟩ <;> cases he.symm.trans h
    · exact (InstrWork.bracket (.inr rfl)).effect_advance
    · exact .completes (.bracket (.inr rfl)) (.inr ⟨j, hj, rfl⟩)

/-! ## The invariant of a legal machine -/

/-- The unpacker's part of `RunInv` (10_state.md R16, R17). -/
structure UnpackerOk (s : State) : Prop where
  in_rem_le : s.inRem ≤ 7
  in_cur_le : s.inCur ≤ s.host.inp.length
  in_buf_last : 0 < s.inRem → 0 < s.inCur ∧ s.host.inp[s.inCur - 1]? = some s.inBuf
  in_eos_end : s.inEos = true → s.inCur = s.host.inp.length ∧ s.inRem = 0

/-- The packer's part of `RunInv` (10_state.md R18, R19). -/
structure PackerOk (s : State) : Prop where
  out_cnt_le : s.outCnt ≤ 7
  out_buf_clear : ∀ k < 8, s.outCnt ≤ k → s.outBuf.getLsbD k = false
  out_cur_len : s.out.length = s.outCur

theorem RunInv.unpackerOk {s : State} (h : RunInv s) : UnpackerOk s :=
  ⟨h.in_rem_le, h.in_cur_le, h.in_buf_last, h.in_eos_end⟩

theorem RunInv.packerOk {s : State} (h : RunInv s) : PackerOk s := ⟨h.out_cnt_le, h.out_buf_clear, h.out_cur_len⟩

namespace UnpackerOk

variable {s : State}

theorem dropInputBit (h : UnpackerOk s) (hrem : s.inRem ≠ 0) : UnpackerOk (dropInputBit s) where
  in_rem_le := (Nat.sub_le _ _).trans h.in_rem_le
  in_cur_le := h.in_cur_le
  in_buf_last _ := h.in_buf_last (Nat.pos_of_ne_zero hrem)
  in_eos_end heos := absurd (h.in_eos_end heos).2 hrem

/-- A byte pulled, and its first bit delivered. -/
theorem takeByte_dropInputBit {b : Byte} (heos : s.inEos = false) (hb : s.host.inp[s.inCur]? = some b) :
    UnpackerOk (Machine.dropInputBit (takeByte b s)) where
  in_rem_le := by simp
  in_cur_le := (List.getElem?_eq_some_iff.1 hb).1
  in_buf_last _ := ⟨Nat.succ_pos _, hb⟩
  in_eos_end h := by simp [heos] at h

theorem takeEos (h : UnpackerOk s) (hrem : s.inRem = 0) (hend : s.host.inp[s.inCur]? = none) :
    UnpackerOk (takeEos s) where
  in_rem_le := h.in_rem_le
  in_cur_le := h.in_cur_le
  in_buf_last := h.in_buf_last
  in_eos_end _ := ⟨h.in_cur_le.antisymm (List.getElem?_eq_none_iff.1 hend), hrem⟩

end UnpackerOk

namespace PackerOk

variable {s : State}

theorem packBit (h : PackerOk s) (hcnt : s.outCnt < 7) (v : Bit) :
    PackerOk (packBit (withBit s.outBuf s.outCnt v) s) where
  out_cnt_le := hcnt
  out_buf_clear k hk hle := by
    have hlt : s.outCnt < k := hle
    simp [getLsbD_withBit _ _ hk, hlt.ne', h.out_buf_clear k hk hlt.le]
  out_cur_len := h.out_cur_len

theorem pushByte (h : PackerOk s) (w : Byte) : PackerOk (pushByte w s) where
  out_cnt_le := by simp
  out_buf_clear := by simp
  out_cur_len := by simp [h.out_cur_len]

end PackerOk

namespace InstrWork

variable {s u : State} {i : Instr}

theorem tapeWf (w : InstrWork s i u) (h : tapeWf s.tape) : Machine.tapeWf u.tape := by
  cases w with
  | toggle => exact tapeWf_writeCurrent h _
  | inBuffered | inKnownEnd | inByte | inEnd => exact tapeWf_writeTape h _ _
  | left | right | outPack | outPush | bracket => exact h

theorem ptrInRange (w : InstrWork s i u) (h : PtrInRange s) : PtrInRange u := by
  obtain ⟨hmin, hmax⟩ := h
  cases w with
  | left hrange => exact ⟨hrange, fun m hm => by have := hmax m hm; simp only [setPtr_ptr]; omega⟩
  | right hrange => exact ⟨fun m hm => by have := hmin m hm; simp only [setPtr_ptr]; omega, hrange⟩
  | toggle | inBuffered | inKnownEnd | inByte | inEnd | outPack | outPush | bracket => exact ⟨hmin, hmax⟩

theorem unpackerOk (w : InstrWork s i u) (h : UnpackerOk s) : UnpackerOk u := by
  cases w with
  | inBuffered hrem => exact { h.dropInputBit hrem with }
  | inByte heos hb => exact { UnpackerOk.takeByte_dropInputBit heos hb with }
  | inEnd hrem hend => exact { h.takeEos hrem hend with }
  | toggle | left | right | inKnownEnd | outPack | outPush | bracket => exact { h with }

theorem packerOk (w : InstrWork s i u) (h : PackerOk s) : PackerOk u := by
  cases w with
  | outPack hcnt => exact h.packBit hcnt _
  | outPush => exact h.pushByte _
  | toggle | left | right | inBuffered | inKnownEnd | inByte | inEnd | bracket => exact { h with }

/-- No work ends in a hold, if only an IN that needs a byte begins in one (44_engine_cycle.md R150). -/
theorem hold_eq_none (w : InstrWork s i u)
    (h : s.hold ≠ none → i = .inBit ∧ s.inRem = 0 ∧ s.inEos = false) : u.hold = none := by
  cases w with
  | inByte | inEnd => rfl
  | inBuffered hrem => exact not_not.1 fun hh => hrem (h hh).2.1
  | inKnownEnd _ heos => exact not_not.1 fun hh => by simp [(h hh).2.2] at heos
  | toggle hi | bracket hi => exact not_not.1 fun hh => by simp [(h hh).1] at hi
  | left | right | outPack | outPush => exact not_not.1 fun hh => by cases (h hh).1

end InstrWork

/-- In a well-formed Program an instruction that completes leaves `ip` within it (43_jump_ops.md R132). -/
theorem NextIp.le_len {s : State} {n : Nat} (hn : NextIp s n) (hok : ProgramOk s.prog s.jt) (hip : s.ip < s.len) :
    n ≤ s.len := by
  obtain ⟨-, -, -, -, -, hrange⟩ := hok
  rcases hn with rfl | ⟨j, hj, rfl⟩
  · exact hip
  · exact hrange s.ip hip j hj

namespace RunInv

variable {s u : State} {i : Instr} {op : Operation} {c : FaultCause} {n : Nat}

/-- A hold is in an IN: what the fetched instruction is while one lasts. -/
theorem hold_instr (h : RunInv s) (hf : s.prog[s.ip]? = some op) (hh : s.hold ≠ none) :
    op.instr = .inBit ∧ s.inRem = 0 ∧ s.inEos = false := by
  obtain ⟨-, hread, hrem, heos⟩ := h.hold_in hh
  cases hf.symm.trans hread
  exact ⟨rfl, hrem, heos⟩

/-- An engine that executes is below its budget (44_engine_cycle.md R146, R148). -/
theorem steps_lt_of_execute (h : RunInv s) (hb : boundary s = .execute) : ∀ m ∈ s.cfg.stepBudget, s.steps < m := by
  intro m hm
  obtain ⟨hle, hhold⟩ := h.steps_le m hm
  obtain ⟨-, -, -, hh | ⟨-, hne⟩⟩ := (boundary_eq_execute_iff s).1 hb
  · exact hhold hh
  · exact lt_of_le_of_ne hle fun heq => hne (heq ▸ hm)

theorem raiseFault (h : RunInv s) (hh : s.hold = none) (hc : c ≠ .programTooLong) : RunInv (raiseFault c s) :=
  { h with
    fault_step := by simpa using hc
    hold_in := fun hne => absurd hh hne }

theorem holdInput (h : RunInv s) (hfault : s.fault = none) (hf : s.prog[s.ip]? = some .readBit) (hrem : s.inRem = 0)
    (heos : s.inEos = false) (hlt : ∀ m ∈ s.cfg.stepBudget, s.steps < m) : RunInv (holdInput s) :=
  { h with
    hold_in := fun _ => ⟨hfault, hf, hrem, heos⟩
    steps_le := fun m hm => ⟨(hlt m hm).le, fun _ => hlt m hm⟩ }

/-- The invariant after an instruction that completes, from its work and from where `ip` goes. -/
theorem completeAt (h : RunInv s) (w : InstrWork s i u)
    (hhold : s.hold ≠ none → i = .inBit ∧ s.inRem = 0 ∧ s.inEos = false) (hn : n ≤ s.len)
    (hlt : ∀ m ∈ s.cfg.stepBudget, s.steps < m) : RunInv (completeAt n u) :=
  have hnone : u.hold = none := w.hold_eq_none hhold
  { w.unpackerOk h.unpackerOk, w.packerOk h.packerOk with
    ip_le := by simpa [State.len, w.sameProgram.prog] using hn
    ptr_range := w.ptrInRange h.ptr_range
    fault_step := by simpa [w.fault_eq] using h.fault_step
    hold_in := fun hne => absurd hnone hne
    steps_le := fun m hm => by
      rw [completeAt_cfg, w.sameProgram.cfg] at hm
      exact ⟨by simpa [w.steps_eq] using hlt m hm, fun hne => absurd hnone hne⟩ }

/-- An instruction at an executing boundary keeps the run's part of the invariant. -/
theorem exec (h : RunInv s) (hok : ProgramOk s.prog s.jt) (hb : boundary s = .execute) (hf : s.prog[s.ip]? = some op)
    {t : State} (hx : exec op.instr s = .next t) : RunInv t := by
  have hhold := h.hold_instr hf
  cases exec_effect hx with
  | faults hc =>
    have hnin : op.instr ≠ .inBit := by
      intro heq
      simp [CanRaise, heq] at hc
    refine h.raiseFault (not_not.1 fun hh => hnin (hhold hh).1) ?_
    rcases hc with ⟨-, rfl⟩ | ⟨-, rfl⟩ <;> decide
  | holds hi hrem heos =>
    have hop : op = .readBit := by rw [← operation_instr op, hi]; rfl
    obtain ⟨-, hfault, -⟩ := (boundary_eq_execute_iff s).1 hb
    exact h.holdInput hfault (hop ▸ hf) hrem heos (h.steps_lt_of_execute hb)
  | completes w hn =>
    exact h.completeAt w hhold (hn.le_len hok (List.getElem?_eq_some_iff.1 hf).1) (h.steps_lt_of_execute hb)

end RunInv

/-! ## What a step can do -/

/-- All that a step can do to the state as a whole: stay, a fault, a hold, or one instruction completed
(44_engine_cycle.md R144). -/
theorem step_effect {s t : State} (h : step s = .next t) :
    t = s ∨ (∃ c, t = raiseFault c s) ∨ t = holdInput s ∨ ∃ i u n, InstrWork s i u ∧ t = completeAt n u := by
  rcases step_next_cases h with ⟨-, rfl⟩ | ⟨c, -, rfl⟩ | ⟨op, -, -, hx⟩
  · exact .inl rfl
  · exact .inr (.inl ⟨c, rfl⟩)
  · cases exec_effect hx with
    | faults => exact .inr (.inl ⟨_, rfl⟩)
    | holds => exact .inr (.inr (.inl rfl))
    | completes w => exact .inr (.inr (.inr ⟨_, _, _, w, rfl⟩))

/-- Settles O30, by the effects of a step: only a completion needs the frame of the instruction's work. -/
theorem stepsNeverWriteTheProgram : Obligations.StepsNeverWriteTheProgram := by
  intro s t h
  rcases step_effect h with rfl | ⟨c, rfl⟩ | rfl | ⟨i, u, n, w, rfl⟩
  · constructor <;> rfl
  · constructor <;> rfl
  · constructor <;> rfl
  · exact { w.sameProgram with }

/-- A step keeps the canonical form of the tape. -/
theorem tapeWf_step {s t : State} (hs : tapeWf s.tape) (h : step s = .next t) : tapeWf t.tape := by
  rcases step_effect h with rfl | ⟨c, rfl⟩ | rfl | ⟨i, u, n, w, rfl⟩
  · exact hs
  · exact hs
  · exact hs
  · exact w.tapeWf hs

/-- A step of a started engine keeps the run's part of the invariant. -/
theorem RunInv.step {s t : State} (hs : RunInv s) (hok : ProgramOk s.prog s.jt) (h : step s = .next t) : RunInv t := by
  rcases step_next_cases h with ⟨-, rfl⟩ | ⟨c, hb, rfl⟩ | ⟨op, hb, hf, hx⟩
  · exact hs
  · obtain ⟨-, -, -, hh, hc⟩ := boundary_raise hb
    refine hs.raiseFault hh ?_
    rcases hc with ⟨rfl, -⟩ | ⟨rfl, -⟩ <;> decide
  · exact hs.exec hok hb hf hx

/-- Settles O34: the Program's part is never written, the tape keeps its form, and the run's part is kept by the effect of
each step. -/
theorem stepKeepsTheInvariant : Obligations.StepKeepsTheInvariant := by
  intro s t hs h
  have hsame : SameProgram s t := stepsNeverWriteTheProgram s t h
  refine ⟨tapeWf_step hs.tape_canonical h, ?_, fun hld => ?_, fun hst => ?_⟩
  · rw [hsame.cfg]
    exact hs.cfg_legal
  · rw [hsame.prog, hsame.jt]
    exact hs.program_ok (hsame.ldState ▸ hld)
  · have hst' : engineStarted s = true := by simpa [engineStarted, hsame.ldState, hsame.started] using hst
    have hld : s.ldState = .loaded := by
      simp only [engineStarted, Bool.and_eq_true, beq_iff_eq] at hst'
      exact hst'.1
    exact (hs.run_inv hst').step (hs.program_ok hld) h

/-- Settles O33: at power-on nothing is loaded, so no run has to meet anything. -/
theorem powerOnMeetsTheInvariant : Obligations.PowerOnMeetsTheInvariant where
  tape_canonical := tapeWf_nil
  cfg_legal := by decide
  program_ok h := by cases h
  run_inv h := by cases h

/-! ## The streams -/

/-- From `s` to `t` no emitted byte is taken back and no input is read again (10_state.md R17, R19). -/
def StreamsForward (s t : State) : Prop :=
  s.out <+: t.out ∧ s.inCur ≤ t.inCur ∧ s.outCur ≤ t.outCur ∧ (s.inEos = true → t.inEos = true)

theorem StreamsForward.refl (s : State) : StreamsForward s s := ⟨⟨[], List.append_nil _⟩, le_rfl, le_rfl, id⟩

/-- The work of an instruction moves the streams forward: only a pushed byte, a taken byte and a found end do so at all. -/
theorem InstrWork.streamsForward {s u : State} {i : Instr} (w : InstrWork s i u) : StreamsForward s u := by
  obtain ⟨hout, hin, hcur, heos⟩ := StreamsForward.refl s
  cases w with
  | outPush => exact ⟨⟨_, rfl⟩, hin, Nat.le_succ _, heos⟩
  | inByte => exact ⟨hout, Nat.le_succ _, hcur, heos⟩
  | inEnd => exact ⟨hout, hin, hcur, fun _ => rfl⟩
  | toggle | left | right | inBuffered | inKnownEnd | outPack | bracket => exact .refl s

/-- Settles O32, by the effects of a step: only a completion touches the streams. -/
theorem streamsAreNeverRewound : Obligations.StreamsAreNeverRewound := by
  intro s t h
  rcases step_effect h with rfl | ⟨c, rfl⟩ | rfl | ⟨i, u, n, w, rfl⟩
  · exact StreamsForward.refl t
  · exact StreamsForward.refl s
  · exact StreamsForward.refl s
  · exact w.streamsForward

/-- The work of OUT writes one bit, and no other instruction's writes any (10_state.md R19). -/
theorem InstrWork.bitsWritten {s u : State} {i : Instr} (w : InstrWork s i u) (hcnt : s.outCnt ≤ 7) :
    bitsWritten u = bitsWritten s + if i = .outBit then 1 else 0 := by
  cases w with
  | outPack => simp [Machine.bitsWritten, Nat.add_assoc]
  | outPush h7 =>
    simp only [Machine.bitsWritten, pushByte_outCur, pushByte_outCnt, if_true]
    omega
  | toggle hi | bracket hi => rcases hi with rfl | rfl <;> rfl
  | left | right | inBuffered | inKnownEnd | inByte | inEnd => rfl

/-- Settles O19: a fault and a hold count no step and write no bit; a completion counts one. -/
theorem writtenBitsCountCompletedOuts : Obligations.WrittenBitsCountCompletedOuts := by
  intro i s t hcnt h
  cases exec_effect h with
  | faults => simp [bitsWritten]
  | holds => simp [bitsWritten]
  | completes w => simpa [w.steps_eq, bitsWritten] using w.bitsWritten hcnt

/-! ## The tape -/

/-- Settles O6, by the two laws of a write. -/
theorem tapeReadsTheLastWrite : Obligations.TapeReadsTheLastWrite :=
  ⟨readTape_nil, fun _ a v h => ⟨readTape_writeTape h a v, tapeWf_writeTape h a v⟩⟩

/-- The first listed address of a canonical tape reads its own bit, which is not 0. -/
theorem readTape_head_ne_zero {c : Int × Bit} {t : Tape} (h : tapeWf (c :: t)) : readTape (c :: t) c.1 ≠ 0 := by
  rw [readTape_cons, if_pos rfl]
  exact (tapeWf_cons.1 h).2.1

/-- A canonical tape reads 0 below its first listed address. -/
theorem head_le_of_readTape_ne_zero {c : Int × Bit} {t : Tape} {a : Int} (h : tapeWf (c :: t))
    (ha : readTape (c :: t) a ≠ 0) : c.1 ≤ a := by
  by_contra hlt
  obtain ⟨hrise, -, -⟩ := tapeWf_cons.1 h
  refine ha (readTape_of_below (List.forall_mem_cons.2 ⟨by omega, fun d hd => ?_⟩))
  have := hrise d hd
  omega

/-- A canonical tape that reads 0 everywhere lists nothing. -/
theorem eq_nil_of_readTape_eq_zero {t : Tape} (h : tapeWf t) (h0 : ∀ a, readTape t a = 0) : t = [] := by
  cases t with
  | nil => rfl
  | cons c t => exact absurd (h0 c.1) (readTape_head_ne_zero h)

/-- Settles O7, by induction on one tape: the first entries agree, because each is the lowest address that does not read 0,
and then the rests read alike. -/
theorem canonicalTapesThatReadAlikeAreEqual : Obligations.CanonicalTapesThatReadAlikeAreEqual := by
  intro t
  induction t with
  | nil => exact fun u _ hu h => (eq_nil_of_readTape_eq_zero hu fun a => (h a).symm).symm
  | cons c t ih =>
    intro u ht hu h
    cases u with
    | nil => exact eq_nil_of_readTape_eq_zero ht h
    | cons d u =>
      have haddr : c.1 = d.1 := le_antisymm
        (head_le_of_readTape_ne_zero ht (h d.1 ▸ readTape_head_ne_zero hu))
        (head_le_of_readTape_ne_zero hu (h c.1 ▸ readTape_head_ne_zero ht))
      have hbit : c.2 = d.2 := by simpa [readTape_cons, haddr] using h c.1
      obtain ⟨hct, -, ht'⟩ := tapeWf_cons.1 ht
      obtain ⟨hdu, -, hu'⟩ := tapeWf_cons.1 hu
      have hrest : ∀ a, readTape t a = readTape u a := by
        intro a
        by_cases ha : a = c.1
        · rw [ha, readTape_of_below hct, haddr, readTape_of_below hdu]
        · simpa [readTape_cons, ha, ← haddr] using h a
      rw [Prod.ext haddr hbit, ih u ht' hu' hrest]

/-! ## The model's own stops -/

/-- A fetch outside the store stops (log 11). -/
theorem step_of_fetch_none {s : State} (hb : boundary s = .execute) (hf : s.prog[s.ip]? = none) :
    step s = .fault .fetchOutsideStore := by
  simp [step, fetch, hb, hf]

/-- Settles O23: of the ways a bracket and a step can end, the state leaves only the model's stop. -/
theorem ruledOutStatesStopByName : Obligations.RuledOutStatesStopByName := by
  refine ⟨fun s hj => ⟨fun h0 => ?_, fun h1 => ?_⟩, fun s hld hst hfault hip hstop hbudget => ?_⟩
  · rcases exec_jzf_cases s with ⟨h, -⟩ | ⟨-, j, h, -⟩ | ⟨-, -, he⟩
    · exact absurd h0 h
    · simp [hj] at h
    · exact he
  · rcases exec_jnzb_cases s with ⟨h, -⟩ | ⟨-, j, h, -⟩ | ⟨-, -, he⟩
    · exact absurd h h1
    · simp [hj] at h
    · exact he
  · have hb : boundary s = .execute := (boundary_eq_execute_iff s).2
      ⟨by simp [engineStarted, hld, hst], hfault, hip.ne', .inr ⟨hstop, hbudget⟩⟩
    exact step_of_fetch_none hb (List.getElem?_eq_none hip.le)

/-! ## Reset and the host -/

/-- Settles O46: an accepted START is a reset with the host's streams. -/
theorem startResetsOrIsRefused : Obligations.StartResetsOrIsRefused := by
  refine fun s h => ⟨fun hld => ?_, fun hld => start_of_not_loaded hld h⟩
  rw [start_of_loaded hld]
  simp

/-- Settles O48: START is refused because nothing is loaded; the values are those of the literal state. -/
theorem powerOnIsUnloadedAndReset : Obligations.PowerOnIsUnloadedAndReset := by
  refine ⟨rfl, rfl, fun h => start_of_not_loaded (by decide) h, readTape_nil, ?_⟩
  decide

/-- Settles O51: no field the status shows is computed from the changed ones. -/
theorem statusShowsNoTapeOrPartialByte : Obligations.StatusShowsNoTapeOrPartialByte := fun _ _ _ _ _ _ _ => rfl

/-- All that the setting of `cfg` can do (00_scope.md R6, 70_reset_and_hazards.md R215). -/
theorem setCfg_cases (c : Cfg) (s : State) :
    (runState s = some .running ∧ setCfg c s = .refused .cfgWhileRunning) ∨
    (runState s ≠ some .running ∧ c.Legal ∧ setCfg c s = .next { s with cfg := c }) ∨
    (runState s ≠ some .running ∧ ¬ c.Legal ∧ setCfg c s = .refused .cfgIllegal) := by
  by_cases hr : runState s = some .running
  · exact .inl ⟨hr, if_pos hr⟩
  · by_cases hl : c.Legal
    · exact .inr (.inl ⟨hr, hl, (if_neg hr).trans (if_pos hl)⟩)
    · exact .inr (.inr ⟨hr, hl, (if_neg hr).trans (if_neg hl)⟩)

/-- Settles O52, by all that LOAD and the setting of `cfg` can do. -/
theorem hostOperationsAreRefusedWhileRunning : Obligations.HostOperationsAreRefusedWhileRunning := by
  intro s c src
  rcases setCfg_cases c s with ⟨hr, hc⟩ | ⟨hr, hl, hc⟩ | ⟨hr, hl, hc⟩
  · have hload : load src s = .refused .loadWhileRunning := by
      rcases load_cases src s with ⟨-, h⟩ | ⟨hn, -⟩ | ⟨hn, -⟩
      · exact h
      · exact absurd hr hn
      · exact absurd hr hn
    exact ⟨fun _ => ⟨hload, hc⟩, fun hn => absurd hr hn, fun hn => absurd hr hn⟩
  · exact ⟨fun h => absurd h hr, fun _ _ => hc, fun _ hn => absurd hl hn⟩
  · exact ⟨fun h => absurd h hr, fun _ hy => absurd hy hl, fun _ _ => hc⟩

end Sys2Proof.Machine
end

section
/-! PROOFS. The encoding: characters and instructions, a text with comments, the internal opcodes, and what the loader's scan
does at a character that is no command (30_encoding.md). -/

namespace Sys2Proof

/-! ## Characters -/

/-- The facts the per-instruction lemmas state, for every instruction. -/
theorem encodeDecode (i : Instr) : Laws.EncodeDecode.Statement i := by
  cases i with
  | tglPlus => exact Laws.EncodeDecode.tglPlus
  | inBit => exact Laws.EncodeDecode.inBit
  | tglMinus => exact Laws.EncodeDecode.tglMinus
  | outBit => exact Laws.EncodeDecode.outBit
  | left => exact Laws.EncodeDecode.left
  | right => exact Laws.EncodeDecode.right
  | jzf => exact Laws.EncodeDecode.jzf
  | jnzb => exact Laws.EncodeDecode.jnzb

@[simp] theorem decodeChar_charCode (i : Instr) : decodeChar (charCode i) = .command i := by
  obtain ⟨-, -, hchar, -⟩ := encodeDecode i
  exact hchar

@[simp] theorem decodeText_encode (i : Instr) : decodeText (encode i) = [i] := by
  obtain ⟨-, -, -, htext, -⟩ := encodeDecode i
  exact htext

theorem decodeChar_eq_command_iff (c : Byte) (i : Instr) : decodeChar c = .command i ↔ c = charCode i :=
  ⟨eq_charCode_of_decodeChar, fun h => h ▸ decodeChar_charCode i⟩

theorem mem_commandCodes_of_decodeChar {c : Byte} {i : Instr} (h : decodeChar c = .command i) : c ∈ commandCodes := by
  by_contra hc
  simp [(decodeChar_eq_skip_iff c).2 hc] at h

/-- Settles O2: `decodeChar` and `charCode` are inverse to each other on the commands. -/
theorem decodeAndCharacterCodeAgree : Obligations.DecodeAndCharacterCodeAgree :=
  ⟨fun _ => rfl, decodeChar_eq_command_iff⟩

/-- Settles O1: the codes are those of `charCode`, and a code that is not listed is skipped. -/
theorem symbolCodesDecode : Obligations.SymbolCodesDecode := by
  refine ⟨?codes, fun c hc => (decodeChar_eq_skip_iff c).2 hc, ?operations⟩
  case codes =>
    exact ⟨decodeChar_charCode .tglPlus, decodeChar_charCode .tglMinus, decodeChar_charCode .left,
      decodeChar_charCode .right, decodeChar_charCode .inBit, decodeChar_charCode .outBit, decodeChar_charCode .jzf,
      decodeChar_charCode .jnzb⟩
  case operations => exact ⟨rfl, rfl, rfl, rfl, rfl, rfl, rfl, rfl⟩

/-! ## Texts -/

/-- Comments decode to nothing: a text decodes like its command characters alone (30_encoding.md R63). -/
theorem decodeText_filter_commands (text : List Byte) :
    decodeText (text.filter (fun c => decide (c ∈ commandCodes))) = decodeText text := by
  induction text with
  | nil => rfl
  | cons c rest ih =>
    rcases decodeChar_cases c with hskip | ⟨i, hi⟩
    · have hc : c ∉ commandCodes := (decodeChar_eq_skip_iff c).1 hskip
      rw [List.filter_cons_of_neg (by simpa using hc), decodeText_cons_skip hskip, ih]
    · have hc : c ∈ commandCodes := mem_commandCodes_of_decodeChar hi
      rw [List.filter_cons_of_pos (by simpa using hc), decodeText_cons_command hi, decodeText_cons_command hi, ih]

/-- Encoding then decoding is the identity (30_encoding.md R69). -/
theorem decodeText_flatMap_encode (is : List Instr) : decodeText (is.flatMap encode) = is := by
  induction is with
  | nil => rfl
  | cons i is ih => rw [List.flatMap_cons, decodeText_append, decodeText_encode, ih, List.singleton_append]

/-- Settles O3: dropping the comments does not change what a text decodes to, and what is left is the encoding. -/
theorem commentedTextDecodesToItsInstructions : Obligations.CommentedTextDecodesToItsInstructions := by
  intro is text h
  calc decodeText text
      = decodeText (text.filter (fun c => decide (c ∈ commandCodes))) := (decodeText_filter_commands text).symm
    _ = decodeText (is.flatMap encode) := by rw [h]
    _ = is := decodeText_flatMap_encode is

/-! ## Internal opcodes -/

@[simp] theorem operationOfIop_iop (op : Operation) : operationOfIop op.iop = some op := by cases op <;> rfl

/-- Settles O4: the opcodes are those of the table, and 111 is past its seven rows. -/
theorem storedOpcodesReadBack : Obligations.StoredOpcodesReadBack :=
  ⟨⟨rfl, rfl, rfl, rfl, rfl, rfl, rfl⟩, operationOfIop_iop, rfl⟩

/-! ## The loader's scan -/

/-- A skipped character reaches neither the capacity test nor the bracket rule (30_encoding.md R63). -/
theorem scanChar_of_skip {ch : Byte} (h : decodeChar ch = .skip) (progMax : Option Nat) (c : Nat) (w : Machine.Scan) :
    Machine.scanChar progMax c ch w = .ok w := by
  simp only [Machine.scanChar, h]

/-- Settles O5: the characters that are no command are those the decoder skips. -/
theorem nonCommandCharacterIsSkipped : Obligations.NonCommandCharacterIsSkipped :=
  fun progMax c ch w hch => scanChar_of_skip ((decodeChar_eq_skip_iff ch).2 hch) progMax c w

end Sys2Proof
end

section
/-! PROOFS. The loader: what the scan of a text has built after every character, and from it which texts load, what they load
to, and which of the three errors the others report, and where (40_loader_bracket_table.md). -/

namespace Sys2Proof

/-! ## Counting in texts -/

@[simp] theorem openCount_append (a b : List Byte) : openCount (a ++ b) = openCount a + openCount b := List.count_append
@[simp] theorem closeCount_append (a b : List Byte) : closeCount (a ++ b) = closeCount a + closeCount b :=
  List.count_append
@[simp] theorem commandCount_append (a b : List Byte) : commandCount (a ++ b) = commandCount a + commandCount b :=
  List.countP_append

@[simp] theorem openCount_open : openCount [0x5B] = 1 := rfl
@[simp] theorem closeCount_open : closeCount [0x5B] = 0 := rfl
@[simp] theorem openCount_close : openCount [0x5D] = 0 := rfl
@[simp] theorem closeCount_close : closeCount [0x5D] = 1 := rfl

theorem commandCount_singleton_of_mem {ch : Byte} (h : ch ∈ commandCodes) : commandCount [ch] = 1 := by
  simp [commandCount, h]

theorem commandCount_singleton_of_not_mem {ch : Byte} (h : ch ∉ commandCodes) : commandCount [ch] = 0 := by
  simp [commandCount, h]

theorem charCode_mem_commandCodes (i : Instr) : charCode i ∈ commandCodes :=
  mem_commandCodes_of_decodeChar (decodeChar_charCode i)

theorem charCode_injective : Function.Injective charCode := fun i j h => by
  have hi := decodeChar_charCode i
  rw [h, decodeChar_charCode] at hi
  exact (Decoded.command.inj hi).symm

/-- A command that is no bracket is spelled like none. -/
theorem charCode_ne_of_isBracket {i j : Instr} (hi : i.operation.isBracket = false) (hj : j.operation.isBracket = true) :
    charCode i ≠ charCode j := by
  intro h
  rw [charCode_injective h, hj] at hi
  cases hi

/-- The counted commands are those the decoder finds (30_encoding.md R67). -/
theorem length_decodeText (t : List Byte) : (decodeText t).length = commandCount t := by
  induction t with
  | nil => rfl
  | cons ch t ih =>
    rw [← List.singleton_append, commandCount_append]
    rcases decodeChar_cases ch with hskip | ⟨i, hi⟩
    · rw [commandCount_singleton_of_not_mem ((decodeChar_eq_skip_iff ch).1 hskip), List.singleton_append,
        decodeText_cons_skip hskip, ih, Nat.zero_add]
    · rw [commandCount_singleton_of_mem (mem_commandCodes_of_decodeChar hi), List.singleton_append,
        decodeText_cons_command hi, List.length_cons, ih, Nat.add_comm]

/-- The first `c + 1` characters, with the last of them apart. -/
theorem take_succ_of_getElem? {src : List Byte} {c : Nat} {ch : Byte} (h : src[c]? = some ch) :
    src.take (c + 1) = src.take c ++ [ch] := by
  rw [List.take_add_one, h, Option.toList_some]

/-- A text around one of its characters. -/
theorem eq_take_append_cons_drop {src : List Byte} {p : Nat} {ch : Byte} (h : src[p]? = some ch) :
    src = src.take p ++ [ch] ++ src.drop (p + 1) := by
  rw [← take_succ_of_getElem? h, List.take_append_drop]

theorem commandCount_take_le (src : List Byte) (c : Nat) : commandCount (src.take c) ≤ commandCount src :=
  (List.take_sublist c src).countP_le

/-- One more command fits exactly where the capacity is not used up (40_loader_bracket_table.md R86). -/
theorem fitsProgMax_succ_iff (progMax : Option Nat) (n : Nat) :
    FitsProgMax progMax (n + 1) ↔ FitsProgMax progMax n ∧ progMax ≠ some n := by
  cases progMax with
  | none => simp [FitsProgMax]
  | some m => simp [FitsProgMax]; omega

/-! ## Open brackets of a text -/

/-- The rule over the first `c` characters is the rule over the text cut there. -/
theorem neverOverclosed_take_iff (c : Nat) (src : List Byte) :
    NeverOverclosed (src.take c).length (src.take c) ↔ NeverOverclosed c src := by
  constructor
  · intro h k hk
    have hcut := h (min k (src.take c).length) (Nat.min_le_right ..)
    rwa [← List.take_eq_take_min, List.take_take, Nat.min_eq_left hk] at hcut
  · intro h k _
    rw [List.take_take]
    exact h _ (Nat.min_le_right ..)

/-- One more character keeps the rule if the counts of the longer text do. -/
theorem neverOverclosed_snoc {t : List Byte} {ch : Byte} (h : NeverOverclosed t.length t)
    (hall : closeCount (t ++ [ch]) ≤ openCount (t ++ [ch])) : NeverOverclosed (t ++ [ch]).length (t ++ [ch]) := by
  intro k hk
  rcases Nat.lt_or_eq_of_le hk with hlt | rfl
  · have hkt : k ≤ t.length := by simpa [Nat.lt_succ_iff] using hlt
    rw [List.take_append_of_le_length hkt]
    exact h k hkt
  · rwa [List.take_length]

/-- The scan of `t` closes no bracket that `t` has not opened, and leaves `d` of its brackets open. -/
def LeavesOpen (d : Nat) (t : List Byte) : Prop := NeverOverclosed t.length t ∧ openCount t = closeCount t + d

theorem leavesOpen_zero_iff (t : List Byte) : LeavesOpen 0 t ↔ BalancedText t := Iff.rfl

namespace LeavesOpen

variable {d : Nat} {t : List Byte}

theorem nil : LeavesOpen 0 [] := ⟨fun _ _ => by simp [closeCount], rfl⟩

theorem snoc_open (h : LeavesOpen d t) : LeavesOpen (d + 1) (t ++ [0x5B]) := by
  obtain ⟨hnever, hcount⟩ := h
  refine ⟨neverOverclosed_snoc hnever ?_, ?_⟩ <;>
    simp only [openCount_append, closeCount_append, openCount_open, closeCount_open] <;> omega

theorem snoc_close (h : LeavesOpen (d + 1) t) : LeavesOpen d (t ++ [0x5D]) := by
  obtain ⟨hnever, hcount⟩ := h
  refine ⟨neverOverclosed_snoc hnever ?_, ?_⟩ <;>
    simp only [openCount_append, closeCount_append, openCount_close, closeCount_close] <;> omega

theorem snoc_other (h : LeavesOpen d t) {ch : Byte} (hopen : ch ≠ 0x5B) (hclose : ch ≠ 0x5D) :
    LeavesOpen d (t ++ [ch]) := by
  obtain ⟨hnever, hcount⟩ := h
  have ho : openCount [ch] = 0 := List.count_singleton.trans (if_neg (by simpa using hopen))
  have hc : closeCount [ch] = 0 := List.count_singleton.trans (if_neg (by simpa using hclose))
  refine ⟨neverOverclosed_snoc hnever ?_, ?_⟩ <;> simp only [openCount_append, closeCount_append] <;> omega

/-- A character that is no command is no bracket. -/
theorem snoc_skip (h : LeavesOpen d t) {ch : Byte} (hch : ch ∉ commandCodes) : LeavesOpen d (t ++ [ch]) :=
  h.snoc_other (fun hb => hch (hb ▸ charCode_mem_commandCodes .jzf))
    (fun hb => hch (hb ▸ charCode_mem_commandCodes .jnzb))

/-- Nor is the code of any other command. -/
theorem snoc_plain (h : LeavesOpen d t) {i : Instr} (hi : i.operation.isBracket = false) :
    LeavesOpen d (t ++ [charCode i]) :=
  h.snoc_other (charCode_ne_of_isBracket hi (j := .jzf) rfl) (charCode_ne_of_isBracket hi (j := .jnzb) rfl)

end LeavesOpen

/-- A `[` with balanced text after it stays open: the text before it cannot make up for it. -/
theorem closeCount_lt_openCount_of_unclosed {t : List Byte} {p : Nat} (hnever : NeverOverclosed t.length t)
    (hp : t[p]? = some 0x5B) (hafter : BalancedText (t.drop (p + 1))) : closeCount t < openCount t := by
  have hbefore : closeCount (t.take p) ≤ openCount (t.take p) := by
    have hlt : p < t.length := (List.getElem?_eq_some_iff.1 hp).1
    exact hnever p hlt.le
  have hcount := hafter.2
  rw [eq_take_append_cons_drop hp]
  simp only [openCount_append, closeCount_append, openCount_open, closeCount_open]
  omega

/-- No `[` with balanced text after it has another such `[` after it. -/
theorem not_lt_of_unclosed {t : List Byte} {p q : Nat} (hp : BalancedText (t.drop (p + 1)))
    (hq : t[q]? = some 0x5B) (hqafter : BalancedText (t.drop (q + 1))) : ¬ p < q := by
  intro hlt
  have hsplit : q = p + 1 + (q - (p + 1)) := by omega
  have hget : (t.drop (p + 1))[q - (p + 1)]? = some 0x5B := by rw [List.getElem?_drop, ← hsplit, hq]
  have hdrop : (t.drop (p + 1)).drop (q - (p + 1) + 1) = t.drop (q + 1) := by
    rw [List.drop_drop, ← Nat.add_assoc, ← hsplit]
  have hlt' := closeCount_lt_openCount_of_unclosed hp.1 hget (hdrop ▸ hqafter)
  exact absurd hp.2 hlt'.ne'

/-- At most one `[` has balanced text after it: the unmatched `[` that stands last (40_loader_bracket_table.md R84). -/
theorem unclosed_unique {t : List Byte} {p q : Nat} (hp : t[p]? = some 0x5B) (hpafter : BalancedText (t.drop (p + 1)))
    (hq : t[q]? = some 0x5B) (hqafter : BalancedText (t.drop (q + 1))) : p = q :=
  Nat.le_antisymm (Nat.le_of_not_lt (not_lt_of_unclosed hqafter hp hpafter))
    (Nat.le_of_not_lt (not_lt_of_unclosed hpafter hq hqafter))

end Sys2Proof

namespace Sys2Proof.Machine

section

variable {progMax : Option Nat} {t src : List Byte} {w w' : Scan}

/-! ## The scan of a text, character by character -/

theorem scanText_cons_of_ok {c : Nat} {ch : Byte} (h : scanChar progMax c ch w = .ok w') (rest : List Byte) :
    scanText progMax c (ch :: rest) w = scanText progMax (c + 1) rest w' := by
  simp only [scanText, h]

theorem scanText_cons_of_error {c : Nat} {ch : Byte} {e : LoadErrorKind × Nat}
    (h : scanChar progMax c ch w = .error e) (rest : List Byte) : scanText progMax c (ch :: rest) w = .error e := by
  simp only [scanText, h]

/-- The scan of a text stops with an error exactly where it has reached a character that is refused. -/
theorem scanText_eq_error_iff {c : Nat} {e : LoadErrorKind × Nat} :
    scanText progMax c src w = .error e ↔ ∃ k ch w', src[k]? = some ch ∧
      scanText progMax c (src.take k) w = .ok w' ∧ scanChar progMax (c + k) ch w' = .error e := by
  induction src generalizing c w with
  | nil => simp [scanText]
  | cons x rest ih =>
    cases hx : scanChar progMax c x w with
    | error e' =>
      rw [scanText_cons_of_error hx]
      constructor
      · rintro ⟨⟩
        exact ⟨0, x, w, rfl, rfl, hx⟩
      · rintro ⟨_ | k, ch, w', hch, hscan, herr⟩
        · cases hch
          cases hscan
          exact hx.symm.trans herr
        · rw [List.take_succ_cons, scanText_cons_of_error hx] at hscan
          cases hscan
    | ok w₁ =>
      rw [scanText_cons_of_ok hx, ih]
      constructor
      · rintro ⟨k, ch, w', hch, hscan, herr⟩
        refine ⟨k + 1, ch, w', hch, ?_, ?_⟩
        · rwa [List.take_succ_cons, scanText_cons_of_ok hx]
        · rwa [Nat.add_right_comm, Nat.add_assoc] at herr
      · rintro ⟨_ | k, ch, w', hch, hscan, herr⟩
        · cases hch
          cases hscan
          cases hx.symm.trans herr
        · refine ⟨k, ch, w', hch, ?_, ?_⟩
          · rwa [List.take_succ_cons, scanText_cons_of_ok hx] at hscan
          · rwa [Nat.add_right_comm, Nat.add_assoc]

/-! ## What one character can do -/

theorem operation_eq_jumpIfZeroForward_iff (i : Instr) : i.operation = .jumpIfZeroForward ↔ i = .jzf := by
  cases i <;> decide

theorem operation_eq_jumpIfNonZeroBackward_iff (i : Instr) : i.operation = .jumpIfNonZeroBackward ↔ i = .jnzb := by
  cases i <;> decide

/-- The working copies after a `[` at source position `c` (40_loader_bracket_table.md R82). -/
def openBracket (c : Nat) (w : Scan) : Scan :=
  { storeOperation .jumpIfZeroForward c w with stack := w.prog.length :: w.stack }

/-- The working copies after a `]` at source position `c` that closes the `[` under index `i`
(40_loader_bracket_table.md R82). -/
def closeBracket (i : Nat) (below : List Nat) (c : Nat) (w : Scan) : Scan :=
  { storeOperation .jumpIfNonZeroBackward c w with stack := below, jt := linkPair i w.prog.length (w.jt ++ [none]) }

@[simp] theorem storeOperation_prog (op : Operation) (c : Nat) (w : Scan) :
    (storeOperation op c w).prog = w.prog ++ [op] := rfl
@[simp] theorem storeOperation_jt (op : Operation) (c : Nat) (w : Scan) : (storeOperation op c w).jt = w.jt ++ [none] := rfl
@[simp] theorem storeOperation_spos (op : Operation) (c : Nat) (w : Scan) :
    (storeOperation op c w).spos = w.spos ++ [c] := rfl
@[simp] theorem storeOperation_stack (op : Operation) (c : Nat) (w : Scan) : (storeOperation op c w).stack = w.stack := rfl

@[simp] theorem openBracket_prog (c : Nat) (w : Scan) : (openBracket c w).prog = w.prog ++ [.jumpIfZeroForward] := rfl
@[simp] theorem openBracket_jt (c : Nat) (w : Scan) : (openBracket c w).jt = w.jt ++ [none] := rfl
@[simp] theorem openBracket_spos (c : Nat) (w : Scan) : (openBracket c w).spos = w.spos ++ [c] := rfl
@[simp] theorem openBracket_stack (c : Nat) (w : Scan) : (openBracket c w).stack = w.prog.length :: w.stack := rfl

@[simp] theorem closeBracket_prog (i : Nat) (below : List Nat) (c : Nat) (w : Scan) :
    (closeBracket i below c w).prog = w.prog ++ [.jumpIfNonZeroBackward] := rfl
@[simp] theorem closeBracket_jt (i : Nat) (below : List Nat) (c : Nat) (w : Scan) :
    (closeBracket i below c w).jt = linkPair i w.prog.length (w.jt ++ [none]) := rfl
@[simp] theorem closeBracket_spos (i : Nat) (below : List Nat) (c : Nat) (w : Scan) :
    (closeBracket i below c w).spos = w.spos ++ [c] := rfl
@[simp] theorem closeBracket_stack (i : Nat) (below : List Nat) (c : Nat) (w : Scan) :
    (closeBracket i below c w).stack = below := rfl

/-- All that one character can do to the scan, with the bracket rules written out (40_loader_bracket_table.md R82, R83,
R86). -/
theorem scanChar_ways (progMax : Option Nat) (c : Nat) (ch : Byte) (w : Scan) :
    (ch ∉ commandCodes ∧ scanChar progMax c ch w = .ok w) ∨
    (ch ∈ commandCodes ∧ progMax = some w.prog.length ∧ scanChar progMax c ch w = .error (.programTooLong, c)) ∨
    (progMax ≠ some w.prog.length ∧
      ((∃ i, ch = charCode i ∧ i.operation.isBracket = false ∧
          scanChar progMax c ch w = .ok (storeOperation i.operation c w)) ∨
        (ch = charCode .jzf ∧ scanChar progMax c ch w = .ok (openBracket c w)) ∨
        (ch = charCode .jnzb ∧ w.stack = [] ∧ scanChar progMax c ch w = .error (.unmatchedBackward, c)) ∨
        (ch = charCode .jnzb ∧ ∃ i below, w.stack = i :: below ∧
          scanChar progMax c ch w = .ok (closeBracket i below c w)))) := by
  rcases scanChar_cases progMax c ch w with hskip | ⟨i, hi, hcap, hscan⟩ | ⟨i, hi, hcap, hscan⟩
  · exact .inl hskip
  · exact .inr (.inl ⟨mem_commandCodes_of_decodeChar hi, hcap, hscan⟩)
  · obtain rfl := eq_charCode_of_decodeChar hi
    refine .inr (.inr ⟨hcap, ?_⟩)
    rw [hscan]
    rcases matchBracket_cases i.operation w.prog.length c (storeOperation i.operation c w) with
      ⟨hop, hmatch⟩ | ⟨hop, hmatch⟩ | ⟨hop, hstack, hmatch⟩ | ⟨hop, j, below, hstack, hmatch⟩
    · exact .inl ⟨i, rfl, hop, hmatch⟩
    · obtain rfl := (operation_eq_jumpIfZeroForward_iff i).1 hop
      exact .inr (.inl ⟨rfl, hmatch⟩)
    · obtain rfl := (operation_eq_jumpIfNonZeroBackward_iff i).1 hop
      exact .inr (.inr (.inl ⟨rfl, hstack, hmatch⟩))
    · obtain rfl := (operation_eq_jumpIfNonZeroBackward_iff i).1 hop
      exact .inr (.inr (.inr ⟨rfl, j, below, hstack, hmatch⟩))

/-- When a character is refused, and how: for capacity first, then as a `]` that closes nothing
(40_loader_bracket_table.md R83, R86). -/
theorem scanChar_eq_error_iff {c p : Nat} {ch : Byte} {kind : LoadErrorKind} :
    scanChar progMax c ch w = .error (kind, p) ↔ c = p ∧
      ((kind = .programTooLong ∧ ch ∈ commandCodes ∧ progMax = some w.prog.length) ∨
        (kind = .unmatchedBackward ∧ ch = charCode .jnzb ∧ progMax ≠ some w.prog.length ∧ w.stack = [])) := by
  rcases scanChar_ways progMax c ch w with ⟨hskip, hscan⟩ | ⟨hmem, hcap, hscan⟩ |
    ⟨hcap, ⟨i, rfl, hi, hscan⟩ | ⟨rfl, hscan⟩ | ⟨rfl, hstack, hscan⟩ | ⟨rfl, i, below, hstack, hscan⟩⟩ <;>
    rw [hscan]
  · have hclose : ch ≠ charCode .jnzb := fun h => hskip (h ▸ charCode_mem_commandCodes .jnzb)
    simp [hskip, hclose]
  · simp [hmem, hcap, and_comm, eq_comm]
  · have hclose : charCode i ≠ charCode .jnzb := charCode_ne_of_isBracket hi rfl
    simp [hcap, hclose]
  · have hclose : charCode .jzf ≠ charCode .jnzb := by decide
    simp [hcap, hclose]
  · simp [hcap, hstack, and_comm, eq_comm]
  · simp [hcap, hstack]

/-- A text that scans without an error, and the working copies after it: one constructor per way the scan takes a character
(40_loader_bracket_table.md R82). -/
inductive Scanned (progMax : Option Nat) : List Byte → Scan → Prop
  | start : Scanned progMax [] emptyScan
  | skip {t : List Byte} {w : Scan} {ch : Byte} (h : Scanned progMax t w) (hch : ch ∉ commandCodes) :
      Scanned progMax (t ++ [ch]) w
  | plain {t : List Byte} {w : Scan} {i : Instr} (h : Scanned progMax t w) (hcap : progMax ≠ some w.prog.length)
      (hi : i.operation.isBracket = false) :
      Scanned progMax (t ++ [charCode i]) (storeOperation i.operation t.length w)
  | opens {t : List Byte} {w : Scan} (h : Scanned progMax t w) (hcap : progMax ≠ some w.prog.length) :
      Scanned progMax (t ++ [charCode .jzf]) (openBracket t.length w)
  | closes {t : List Byte} {w : Scan} {i : Nat} {below : List Nat} (h : Scanned progMax t w)
      (hcap : progMax ≠ some w.prog.length) (hstack : w.stack = i :: below) :
      Scanned progMax (t ++ [charCode .jnzb]) (closeBracket i below t.length w)

/-- A character that is taken extends the scanned text. -/
theorem Scanned.snoc {ch : Byte} (h : Scanned progMax t w) (hch : scanChar progMax t.length ch w = .ok w') :
    Scanned progMax (t ++ [ch]) w' := by
  rcases scanChar_ways progMax t.length ch w with ⟨hskip, hscan⟩ | ⟨-, -, hscan⟩ |
    ⟨hcap, ⟨i, rfl, hi, hscan⟩ | ⟨rfl, hscan⟩ | ⟨-, -, hscan⟩ | ⟨rfl, i, below, hstack, hscan⟩⟩ <;>
    cases hscan.symm.trans hch
  · exact h.skip hskip
  · exact h.plain hcap hi
  · exact h.opens hcap
  · exact h.closes hcap hstack

/-- Scanning on from a scanned text extends it by all that follows. -/
theorem Scanned.scanText (h : Scanned progMax t w) (hscan : scanText progMax t.length src w = .ok w') :
    Scanned progMax (t ++ src) w' := by
  induction src generalizing t w with
  | nil =>
    cases hscan
    rwa [List.append_nil]
  | cons ch rest ih =>
    cases hch : scanChar progMax t.length ch w with
    | error e => cases (scanText_cons_of_error hch rest).symm.trans hscan
    | ok w₁ =>
      rw [scanText_cons_of_ok hch] at hscan
      have := ih (h.snoc hch) (by rwa [List.length_append])
      rwa [List.append_assoc] at this

/-- `Scanned` is what the scan has done. -/
theorem scanned_of_scanText (h : scanText progMax 0 t emptyScan = .ok w) : Scanned progMax t w :=
  Scanned.start.scanText h

/-- In the text `t`, whose commands stand at the positions `spos`, the command under index `i` is a `[`, and the text after
it leaves `m` brackets open. -/
def OpensAt (t : List Byte) (spos : List Nat) (i m : Nat) : Prop :=
  ∃ p, spos[i]? = some p ∧ t[p]? = some 0x5B ∧ LeavesOpen m (t.drop (p + 1))

/-- One more character, of which it is known what it does to the open brackets. -/
theorem OpensAt.snoc {spos spos' : List Nat} {i m m' : Nat} {ch : Byte} (h : OpensAt t spos i m) (hpos : spos <+: spos')
    (hch : ∀ u, LeavesOpen m u → LeavesOpen m' (u ++ [ch])) : OpensAt (t ++ [ch]) spos' i m' := by
  obtain ⟨p, hp, hopen, hafter⟩ := h
  have hlt : p < t.length := (List.getElem?_eq_some_iff.1 hopen).1
  refine ⟨p, ?_, ?_, ?_⟩
  · obtain ⟨more, rfl⟩ := hpos
    rwa [List.getElem?_append_left (List.getElem?_eq_some_iff.1 hp).1]
  · rwa [List.getElem?_append_left hlt]
  · rw [List.drop_append_of_le_length hlt]
    exact hch _ hafter

/-! ## The working copies after a scan -/

namespace Scanned

/-- The store holds the operations of the commands scanned so far (40_loader_bracket_table.md R81). -/
theorem prog_eq (h : Scanned progMax t w) : w.prog = (decodeText t).map Instr.operation := by
  have hcode (i : Instr) : decodeText [charCode i] = [i] := decodeText_encode i
  induction h with
  | start => rfl
  | skip _ hch ih =>
    rw [decodeText_append, decodeText_cons_skip ((decodeChar_eq_skip_iff _).2 hch), ih]
    exact congrArg _ (List.append_nil _).symm
  | plain _ _ _ ih => rw [decodeText_append, hcode, List.map_append, ← ih]; rfl
  | opens _ _ ih => rw [decodeText_append, hcode, List.map_append, ← ih]; rfl
  | closes _ _ _ ih => rw [decodeText_append, hcode, List.map_append, ← ih]; rfl

theorem length_prog (h : Scanned progMax t w) : w.prog.length = commandCount t := by
  rw [h.prog_eq, List.length_map, length_decodeText]

/-- What has been stored fits (40_loader_bracket_table.md R86). -/
theorem fits (h : Scanned progMax t w) : FitsProgMax progMax w.prog.length := by
  have hsucc {w : Scan} (hw : FitsProgMax progMax w.prog.length) (hcap : progMax ≠ some w.prog.length) :
      FitsProgMax progMax (w.prog.length + 1) := (fitsProgMax_succ_iff ..).2 ⟨hw, hcap⟩
  induction h with
  | start => exact fun _ _ => Nat.zero_le _
  | skip _ _ ih => exact ih
  | plain _ hcap _ ih => simpa using hsucc ih hcap
  | opens _ hcap ih => simpa using hsucc ih hcap
  | closes _ hcap _ ih => simpa using hsucc ih hcap

/-- A `[` for each entry of the stack is open (40_loader_bracket_table.md R82). -/
theorem leavesOpen (h : Scanned progMax t w) : LeavesOpen w.stack.length t := by
  induction h with
  | start => exact .nil
  | skip _ hch ih => exact ih.snoc_skip hch
  | plain _ _ hi ih => exact ih.snoc_plain hi
  | opens _ _ ih => exact ih.snoc_open
  | closes _ _ hstack ih => exact LeavesOpen.snoc_close (by simpa [hstack] using ih)

theorem length_spos (h : Scanned progMax t w) : w.spos.length = w.prog.length := by
  induction h with
  | start => rfl
  | skip _ _ ih => exact ih
  | plain _ _ _ ih => simp [ih]
  | opens _ _ ih => simp [ih]
  | closes _ _ _ ih => simp [ih]

/-- Each entry of the stack is the index of an open `[`: the text after it leaves open just the brackets of the entries
above it on the stack (40_loader_bracket_table.md R82, R84). -/
theorem stack_opensAt (h : Scanned progMax t w) {m i : Nat} (hm : w.stack[m]? = some i) : OpensAt t w.spos i m := by
  induction h generalizing m i with
  | start => simp [emptyScan] at hm
  | skip _ hch ih => exact (ih hm).snoc (List.prefix_refl _) fun _ hu => hu.snoc_skip hch
  | plain _ _ hi ih => exact (ih hm).snoc (List.prefix_append ..) fun _ hu => hu.snoc_plain hi
  | @opens t w h _ ih =>
    cases m with
    | zero =>
      obtain rfl : w.prog.length = i := by simpa using hm
      exact ⟨t.length, by simp [← h.length_spos], by simp [charCode], by simpa using LeavesOpen.nil⟩
    | succ m => exact (ih (by simpa using hm)).snoc (List.prefix_append ..) fun _ hu => hu.snoc_open
  | closes _ _ hstack ih =>
    have hm' := ih (m := m + 1) (i := i) (by simpa [hstack] using hm)
    exact hm'.snoc (List.prefix_append ..) fun _ hu => hu.snoc_close

end Scanned

/-- A text scans without an error exactly when it closes nothing that is not open and its commands fit
(40_loader_bracket_table.md R83, R86). -/
theorem exists_scanText_ok_iff : (∃ w, scanText progMax 0 t emptyScan = .ok w) ↔
    NeverOverclosed t.length t ∧ FitsProgMax progMax (commandCount t) := by
  constructor
  · rintro ⟨w, hw⟩
    have h := scanned_of_scanText hw
    exact ⟨h.leavesOpen.1, h.length_prog ▸ h.fits⟩
  · rintro ⟨hnever, hfits⟩
    cases hscan : scanText progMax 0 t emptyScan with
    | ok w => exact ⟨w, rfl⟩
    | error e =>
      obtain ⟨kind, p⟩ := e
      obtain ⟨k, ch, w, hk, hw, herr⟩ := scanText_eq_error_iff.1 hscan
      have h := scanned_of_scanText hw
      have hlt : k < t.length := (List.getElem?_eq_some_iff.1 hk).1
      exfalso
      rcases (scanChar_eq_error_iff.1 herr).2 with ⟨-, hmem, hcap⟩ | ⟨-, rfl, -, hstack⟩
      · have hcount : commandCount (t.take (k + 1)) = w.prog.length + 1 := by
          rw [take_succ_of_getElem? hk, commandCount_append, commandCount_singleton_of_mem hmem, h.length_prog]
        have hle := (commandCount_take_le t (k + 1)).trans (hfits _ hcap)
        omega
      · have hopen := hnever (k + 1) hlt
        have hcount := h.leavesOpen.2
        have htake : t.take (k + 1) = t.take k ++ [0x5D] := take_succ_of_getElem? hk
        simp only [htake, openCount_append, closeCount_append, openCount_close, closeCount_close] at hopen
        rw [hstack, List.length_nil] at hcount
        omega

/-! ## The links -/

/-- An entry of a list with one more at its end. -/
theorem getElem?_snoc_cases {α : Type} {l : List α} {a b : α} {k : Nat} (h : (l ++ [a])[k]? = some b) :
    l[k]? = some b ∨ (k = l.length ∧ b = a) := by
  rcases Nat.lt_trichotomy k l.length with hlt | rfl | hgt
  · exact .inl (by rwa [List.getElem?_append_left hlt] at h)
  · exact .inr ⟨rfl, by simpa [eq_comm] using h⟩
  · simp [List.getElem?_eq_none (show (l ++ [a]).length ≤ k by simpa using hgt)] at h

/-- A `[` of the store and a later `]`. -/
def OpenBeforeClose (prog : List Operation) (i j : Nat) : Prop :=
  i < j ∧ prog[i]? = some .jumpIfZeroForward ∧ prog[j]? = some .jumpIfNonZeroBackward

theorem OpenBeforeClose.append {prog : List Operation} {i j : Nat} (h : OpenBeforeClose prog i j) (more : List Operation) :
    OpenBeforeClose (prog ++ more) i j := by
  obtain ⟨hlt, hi, hj⟩ := h
  refine ⟨hlt, ?_, ?_⟩
  · rwa [List.getElem?_append_left (List.getElem?_eq_some_iff.1 hi).1]
  · rwa [List.getElem?_append_left (List.getElem?_eq_some_iff.1 hj).1]

/-- Links pair and nest the brackets closed so far, and the open ones lie on the stack, the last on top, outside every pair
(40_loader_bracket_table.md R82, R85). -/
structure LinksOk (w : Scan) : Prop where
  length_jt : w.jt.length = w.prog.length
  linked : ∀ i j, jumpAt w.jt i = some j →
    jumpAt w.jt j = some i ∧ (OpenBeforeClose w.prog i j ∨ OpenBeforeClose w.prog j i)
  nested : ∀ i j k m, jumpAt w.jt i = some j → i < k → k < j → jumpAt w.jt k = some m → i < m ∧ m < j
  stack_sorted : w.stack.Pairwise (· > ·)
  stack_open : ∀ s ∈ w.stack, w.prog[s]? = some .jumpIfZeroForward ∧ jumpAt w.jt s = none
  stack_outside : ∀ i j s, jumpAt w.jt i = some j → s ∈ w.stack → i < s → j ≤ s

namespace LinksOk

variable {c i : Nat} {below : List Nat}

theorem link_lt (h : LinksOk w) {i j : Nat} (hij : jumpAt w.jt i = some j) : j < w.prog.length :=
  h.length_jt ▸ lt_length_of_jumpAt (h.linked i j hij).1

theorem stack_lt (h : LinksOk w) {s : Nat} (hs : s ∈ w.stack) : s < w.prog.length :=
  (List.getElem?_eq_some_iff.1 (h.stack_open s hs).1).1

theorem storeOperation (h : LinksOk w) (op : Operation) (c : Nat) : LinksOk (storeOperation op c w) where
  length_jt := by simp [h.length_jt]
  linked i j hij := by
    obtain ⟨hji, hpair⟩ := h.linked i j (by simpa using hij)
    exact ⟨by simpa using hji, hpair.imp (·.append _) (·.append _)⟩
  nested := by simpa using h.nested
  stack_sorted := h.stack_sorted
  stack_open s hs := by
    obtain ⟨hop, hnone⟩ := h.stack_open s hs
    refine ⟨?_, by simpa using hnone⟩
    rw [storeOperation_prog, List.getElem?_append_left (h.stack_lt hs), hop]
  stack_outside := by simpa using h.stack_outside

/-- A new `[` goes on top of the stack: every link and every open bracket is before it. -/
theorem openBracket (h : LinksOk w) (c : Nat) : LinksOk (openBracket c w) := by
  have hstore := h.storeOperation .jumpIfZeroForward c
  refine { hstore with stack_sorted := ?_, stack_open := ?_, stack_outside := ?_ }
  · exact List.pairwise_cons.2 ⟨fun s hs => h.stack_lt hs, h.stack_sorted⟩
  · intro s hs
    rcases List.mem_cons.1 hs with rfl | hs
    · exact ⟨by simp, by simpa using jumpAt_of_length_le h.length_jt.le⟩
    · exact hstore.stack_open s hs
  · intro i j s hij hs his
    rcases List.mem_cons.1 hs with rfl | hs
    · exact (h.link_lt (by simpa using hij)).le
    · exact hstore.stack_outside i j s hij hs his

/-- The links after a `]`: the new pair, both ways, and the old ones. -/
theorem jumpAt_closeBracket (h : LinksOk w) (hstack : w.stack = i :: below) (c x y : Nat) :
    jumpAt (closeBracket i below c w).jt x = some y ↔
      (x = w.prog.length ∧ y = i) ∨ (x = i ∧ y = w.prog.length) ∨ jumpAt w.jt x = some y := by
  have hi : i ∈ w.stack := by simp [hstack]
  have hlt := h.stack_lt hi
  have hnone := (h.stack_open i hi).2
  have hend : jumpAt w.jt w.prog.length = none := jumpAt_of_length_le h.length_jt.le
  have hlen := h.length_jt
  rw [closeBracket_jt, jumpAt_linkPair (by simp; omega) (by simp; omega), jumpAt_append_none]
  split
  · next hx => subst hx; simp [hend, hlt.ne', eq_comm]
  · next hx =>
    split
    · next hxi => subst hxi; simp [hnone, hx, eq_comm]
    · next hxi => simp [hx, hxi]

/-- A `]` pairs with the top of the stack: the pair encloses what came after that `[`, and the brackets still open are before
it. -/
theorem closeBracket (h : LinksOk w) (hstack : w.stack = i :: below) (c : Nat) : LinksOk (closeBracket i below c w) := by
  have hi : i ∈ w.stack := by simp [hstack]
  have hlt := h.stack_lt hi
  have hbelow {s : Nat} (hs : s ∈ below) : s ∈ w.stack := by simp [hstack, hs]
  obtain ⟨hfirst, hsorted⟩ := List.pairwise_cons.1 (hstack ▸ h.stack_sorted)
  have hstore := h.storeOperation .jumpIfNonZeroBackward c
  have hjump := h.jumpAt_closeBracket hstack c
  have hopen {y : Nat} : jumpAt w.jt i ≠ some y := by simp [(h.stack_open i hi).2]
  refine
    { length_jt := by simp [h.length_jt], linked := ?linked, nested := ?nested,
      stack_sorted := hsorted, stack_open := ?stack_open, stack_outside := ?stack_outside }
  case linked =>
    have hpair : OpenBeforeClose (w.prog ++ [.jumpIfNonZeroBackward]) i w.prog.length :=
      ⟨hlt, (hstore.stack_open i hi).1, by simp⟩
    intro x y hxy
    rcases (hjump x y).1 hxy with ⟨rfl, rfl⟩ | ⟨rfl, rfl⟩ | hold
    · exact ⟨(hjump ..).2 (.inr (.inl ⟨rfl, rfl⟩)), .inr hpair⟩
    · exact ⟨(hjump ..).2 (.inl ⟨rfl, rfl⟩), .inl hpair⟩
    · obtain ⟨hyx, hpair⟩ := h.linked x y hold
      exact ⟨(hjump ..).2 (.inr (.inr hyx)), hpair.imp (·.append _) (·.append _)⟩
  case nested =>
    intro x y k m hxy hxk hky hkm
    rcases (hjump x y).1 hxy with ⟨rfl, rfl⟩ | ⟨rfl, rfl⟩ | hold
    · omega
    · rcases (hjump k m).1 hkm with ⟨rfl, rfl⟩ | ⟨rfl, rfl⟩ | hold
      · omega
      · omega
      · have hmk := (h.linked k m hold).1
        have hne : m ≠ x := fun hmx => hopen (hmx ▸ hmk)
        have hnotbefore : ¬ m < x := fun hmx => absurd hxk (h.stack_outside m k x hmk hi hmx).not_gt
        exact ⟨by omega, h.link_lt hold⟩
    · rcases (hjump k m).1 hkm with ⟨rfl, rfl⟩ | ⟨rfl, rfl⟩ | hold'
      · exact absurd hky (h.link_lt hold).not_gt
      · exact absurd hky (h.stack_outside x y k hold hi hxk).not_gt
      · exact h.nested x y k m hold hxk hky hold'
  case stack_open =>
    intro s hs
    refine ⟨(hstore.stack_open s (hbelow hs)).1, Option.eq_none_iff_forall_ne_some.2 fun y hy => ?_⟩
    rcases (hjump s y).1 hy with ⟨rfl, rfl⟩ | ⟨rfl, rfl⟩ | hold
    · exact absurd (h.stack_lt (hbelow hs)) (lt_irrefl _)
    · exact absurd (hfirst s hs) (lt_irrefl _)
    · simp [(h.stack_open s (hbelow hs)).2] at hold
  case stack_outside =>
    intro x y s hxy hs hxs
    rcases (hjump x y).1 hxy with ⟨rfl, rfl⟩ | ⟨rfl, rfl⟩ | hold
    · exact hlt.le.trans hxs.le
    · exact absurd (hfirst s hs) hxs.not_gt
    · exact h.stack_outside x y s hold (hbelow hs) hxs

end LinksOk

namespace Scanned

theorem linksOk (h : Scanned progMax t w) : LinksOk w := by
  induction h with
  | start => constructor <;> simp [emptyScan, jumpAt]
  | skip _ _ ih => exact ih
  | plain _ _ _ ih => exact ih.storeOperation ..
  | opens _ _ ih => exact ih.openBracket _
  | closes _ _ hstack ih => exact ih.closeBracket hstack _

/-- A bracket without a link is open (40_loader_bracket_table.md R82). -/
theorem mem_stack_of_unlinked (h : Scanned progMax t w) {k : Nat} {op : Operation} (hop : w.prog[k]? = some op)
    (hbracket : op.isBracket = true) (hnone : jumpAt w.jt k = none) : k ∈ w.stack := by
  induction h generalizing k op with
  | start => simp [emptyScan] at hop
  | skip _ _ ih => exact ih hop hbracket hnone
  | plain _ _ hi ih =>
    rcases getElem?_snoc_cases hop with hold | ⟨-, rfl⟩
    · exact ih hold hbracket (by simpa using hnone)
    · simp [hi] at hbracket
  | opens _ _ ih =>
    rcases getElem?_snoc_cases hop with hold | ⟨rfl, -⟩
    · exact List.mem_cons_of_mem _ (ih hold hbracket (by simpa using hnone))
    · exact List.mem_cons_self
  | @closes t w i below h _ hstack ih =>
    have hjump := h.linksOk.jumpAt_closeBracket hstack t.length k
    simp only [hnone, reduceCtorEq, false_iff, not_or, not_and] at hjump
    rcases getElem?_snoc_cases hop with hold | ⟨rfl, -⟩
    · have hk := ih hold hbracket (Option.eq_none_iff_forall_ne_some.2 fun y hy => (hjump y).2.2 hy)
      rw [hstack] at hk
      exact (List.mem_cons.1 hk).resolve_left fun hki => (hjump w.prog.length).2.1 hki rfl
    · exact absurd rfl ((hjump i).1 rfl)

/-- With no bracket open, the links are those of a well-formed Program (40_loader_bracket_table.md R85). -/
theorem programOk (h : Scanned progMax t w) (hstack : w.stack = []) : ProgramOk w.prog w.jt := by
  have hlinks := h.linksOk
  refine ⟨⟨hlinks.length_jt, ?entries⟩, ?forward, ?backward, ?paired, ?nested, ?inRange⟩
  case entries =>
    intro i hi
    have hop := List.getElem?_eq_getElem hi
    cases hjump : jumpAt w.jt i with
    | none =>
      have hplain : (w.prog[i]).isBracket ≠ true := fun hb => by
        simpa [hstack] using h.mem_stack_of_unlinked hop hb hjump
      rw [hop]
      simp [hplain]
    | some j =>
      rcases (hlinks.linked i j hjump).2 with ⟨-, hbracket, -⟩ | ⟨-, -, hbracket⟩ <;>
        simp [hbracket, Operation.isBracket]
  case forward =>
    intro i _ hop j hij
    rcases (hlinks.linked i j hij).2 with ⟨hlt, -, hj⟩ | ⟨-, -, hi⟩
    · exact ⟨hlt, hj⟩
    · simp [hop] at hi
  case backward =>
    intro i _ hop j hij
    rcases (hlinks.linked i j hij).2 with ⟨-, hi, -⟩ | ⟨hlt, hj, -⟩
    · simp [hop] at hi
    · exact ⟨hlt, hj⟩
  case paired => exact fun i _ j hij => (hlinks.linked i j hij).1
  case nested => exact fun i _ j hij k _ hk m hkm => hlinks.nested i j k m hij hk.1 hk.2 hkm
  case inRange => exact fun i _ j hij => hlinks.link_lt hij

end Scanned

/-! ## The outcomes of a load -/

theorem loadText_of_scan_error {e : LoadErrorKind × Nat} (h : scanText progMax 0 src emptyScan = .error e) :
    loadText progMax src = .error e := by
  simp only [loadText, h]

theorem loadText_of_stack_nil (h : scanText progMax 0 src emptyScan = .ok w) (hstack : w.stack = []) :
    loadText progMax src = .ok (w.prog, w.jt) := by
  simp only [loadText, h, hstack]

theorem loadText_of_stack_cons {top : Nat} {below : List Nat} (h : scanText progMax 0 src emptyScan = .ok w)
    (hstack : w.stack = top :: below) :
    loadText progMax src = .error (.unmatchedForward, w.spos[top]?.getD 0) := by
  simp only [loadText, h, hstack]

/-- All that a load can do: the scan fails, or it ends with no open bracket, or it ends with one
(40_loader_bracket_table.md R82 to R86). -/
theorem loadText_cases (progMax : Option Nat) (src : List Byte) :
    (∃ e, scanText progMax 0 src emptyScan = .error e ∧ loadText progMax src = .error e) ∨
    (∃ w, scanText progMax 0 src emptyScan = .ok w ∧ w.stack = [] ∧ loadText progMax src = .ok (w.prog, w.jt)) ∨
    (∃ w top below, scanText progMax 0 src emptyScan = .ok w ∧ w.stack = top :: below ∧
      loadText progMax src = .error (.unmatchedForward, w.spos[top]?.getD 0)) := by
  cases hscan : scanText progMax 0 src emptyScan with
  | error e => exact .inl ⟨e, rfl, loadText_of_scan_error hscan⟩
  | ok w =>
    cases hstack : w.stack with
    | nil => exact .inr (.inl ⟨w, rfl, hstack, loadText_of_stack_nil hscan hstack⟩)
    | cons top below => exact .inr (.inr ⟨w, top, below, rfl, hstack, loadText_of_stack_cons hscan hstack⟩)

/-- A load that succeeds hands over the working copies of a scan that has closed all its brackets. -/
theorem scanned_of_loadText {prog : List Operation} {jt : List (Option Nat)} (h : loadText progMax src = .ok (prog, jt)) :
    ∃ w, Scanned progMax src w ∧ w.stack = [] ∧ w.prog = prog ∧ w.jt = jt := by
  rcases loadText_cases progMax src with ⟨e, -, hl⟩ | ⟨w, hscan, hstack, hl⟩ | ⟨w, top, below, -, -, hl⟩ <;>
    cases hl.symm.trans h
  exact ⟨w, scanned_of_scanText hscan, hstack, rfl, rfl⟩

/-- An error other than an unmatched `[` is the scan's own, at a character that the working copies so far refuse. -/
theorem loadText_eq_error_iff {kind : LoadErrorKind} {c : Nat} (hkind : kind ≠ .unmatchedForward) :
    loadText progMax src = .error (kind, c) ↔ ∃ ch w, src[c]? = some ch ∧
      scanText progMax 0 (src.take c) emptyScan = .ok w ∧ scanChar progMax c ch w = .error (kind, c) := by
  have hscan : loadText progMax src = .error (kind, c) ↔ scanText progMax 0 src emptyScan = .error (kind, c) := by
    refine ⟨fun h => ?_, loadText_of_scan_error⟩
    rcases loadText_cases progMax src with ⟨e, hscan, hl⟩ | ⟨w, -, -, hl⟩ | ⟨w, top, below, -, -, hl⟩ <;>
      cases hl.symm.trans h
    · exact hscan
    · exact absurd rfl hkind
  rw [hscan, scanText_eq_error_iff]
  simp only [Nat.zero_add]
  constructor
  · rintro ⟨k, ch, w, hk, hw, herr⟩
    obtain rfl : k = c := (scanChar_eq_error_iff.1 herr).1
    exact ⟨ch, w, hk, hw, herr⟩
  · rintro ⟨ch, w, hk, hw, herr⟩
    exact ⟨c, ch, w, hk, hw, herr⟩

end

/-! ## The statements -/

/-- Settles O38: the store is that of the scan. -/
theorem loadedStoreIsTheTextsCommands : Obligations.LoadedStoreIsTheTextsCommands := by
  intro progMax src prog jt hload
  obtain ⟨w, h, -, rfl, -⟩ := scanned_of_loadText hload
  exact ⟨h.prog_eq, h.length_prog⟩

/-- Settles O39: the scan has linked all its brackets when none is open. -/
theorem loadedProgramIsWellFormed : Obligations.LoadedProgramIsWellFormed := by
  intro progMax src prog jt hload
  obtain ⟨w, h, hstack, rfl, rfl⟩ := scanned_of_loadText hload
  exact h.programOk hstack

/-- Settles O40: a text that scans leaves as many brackets open as the stack has entries, so it loads if that is none. -/
theorem textLoadsIffBalancedAndFitting : Obligations.TextLoadsIffBalancedAndFitting := by
  intro progMax src
  constructor
  · rintro ⟨⟨prog, jt⟩, hload⟩
    obtain ⟨w, h, hstack, -, -⟩ := scanned_of_loadText hload
    have hopen := h.leavesOpen
    rw [hstack] at hopen
    exact ⟨(leavesOpen_zero_iff src).1 hopen, h.length_prog ▸ h.fits⟩
  · rintro ⟨⟨hnever, hcount⟩, hfits⟩
    obtain ⟨w, hscan⟩ := exists_scanText_ok_iff.2 ⟨hnever, hfits⟩
    have hopen := (scanned_of_scanText hscan).leavesOpen.2
    have hstack : w.stack = [] := List.length_eq_zero_iff.1 (by omega)
    exact ⟨_, loadText_of_stack_nil hscan hstack⟩

/-- Settles O41: the text before `c` scans, and leaves the stack empty. -/
theorem unmatchedBackwardIsTheFirstOverclosing : Obligations.UnmatchedBackwardIsTheFirstOverclosing := by
  intro progMax src c
  rw [loadText_eq_error_iff (by decide), fitsProgMax_succ_iff]
  constructor
  · rintro ⟨ch, w, hch, hscan, herr⟩
    obtain ⟨-, ⟨⟨⟩, -⟩ | ⟨-, rfl, hcap, hstack⟩⟩ := scanChar_eq_error_iff.1 herr
    have h := scanned_of_scanText hscan
    have hcount := h.leavesOpen.2
    rw [hstack] at hcount
    exact ⟨hch, (neverOverclosed_take_iff ..).1 h.leavesOpen.1, hcount, h.length_prog ▸ h.fits, h.length_prog ▸ hcap⟩
  · rintro ⟨hch, hnever, hcount, hfits, hcap⟩
    obtain ⟨w, hscan⟩ := exists_scanText_ok_iff.2 ⟨(neverOverclosed_take_iff ..).2 hnever, hfits⟩
    have h := scanned_of_scanText hscan
    have hopen := h.leavesOpen.2
    have hstack : w.stack = [] := List.length_eq_zero_iff.1 (by omega)
    exact ⟨_, w, hch, hscan, scanChar_eq_error_iff.2 ⟨rfl, .inr ⟨rfl, rfl, h.length_prog ▸ hcap, hstack⟩⟩⟩

/-- Settles O42: the top of the stack is the `[` after which the text balances, and there is only one such `[`. -/
theorem unmatchedForwardIsTheLastUnclosed : Obligations.UnmatchedForwardIsTheLastUnclosed := by
  intro progMax src p
  constructor
  · intro hload
    rcases loadText_cases progMax src with ⟨e, hscan, hl⟩ | ⟨w, -, -, hl⟩ | ⟨w, top, below, hscan, hstack, hl⟩ <;>
      cases hl.symm.trans hload
    · obtain ⟨k, ch, w, -, -, herr⟩ := scanText_eq_error_iff.1 hscan
      obtain ⟨-, ⟨⟨⟩, -⟩ | ⟨⟨⟩, -⟩⟩ := scanChar_eq_error_iff.1 herr
    · have h := scanned_of_scanText hscan
      obtain ⟨q, hq, hopen, hafter⟩ := h.stack_opensAt (m := 0) (i := top) (by rw [hstack]; rfl)
      rw [hq]
      exact ⟨hopen, (leavesOpen_zero_iff _).1 hafter, h.leavesOpen.1, h.length_prog ▸ h.fits⟩
  · rintro ⟨hopen, hafter, hnever, hfits⟩
    obtain ⟨w, hscan⟩ := exists_scanText_ok_iff.2 ⟨hnever, hfits⟩
    have h := scanned_of_scanText hscan
    have hlt := closeCount_lt_openCount_of_unclosed hnever hopen hafter
    cases hstack : w.stack with
    | nil =>
      have hcount := h.leavesOpen.2
      rw [hstack, List.length_nil] at hcount
      omega
    | cons top below =>
      obtain ⟨q, hq, hqopen, hqafter⟩ := h.stack_opensAt (m := 0) (i := top) (by rw [hstack]; rfl)
      have hpq : p = q := unclosed_unique hopen hafter hqopen ((leavesOpen_zero_iff _).1 hqafter)
      rw [loadText_of_stack_cons hscan hstack, hq, hpq, Option.getD_some]

/-- Settles O43: the text before `c` scans, and uses up the capacity. -/
theorem programTooLongIsTheFirstThatDoesNotFit : Obligations.ProgramTooLongIsTheFirstThatDoesNotFit := by
  intro progMax src c
  rw [loadText_eq_error_iff (by decide)]
  constructor
  · rintro ⟨ch, w, hch, hscan, herr⟩
    obtain ⟨-, ⟨-, hmem, hcap⟩ | ⟨⟨⟩, -⟩⟩ := scanChar_eq_error_iff.1 herr
    have h := scanned_of_scanText hscan
    exact ⟨h.length_prog ▸ hcap, ⟨ch, hch, hmem⟩, (neverOverclosed_take_iff ..).1 h.leavesOpen.1⟩
  · rintro ⟨hcap, ⟨ch, hch, hmem⟩, hnever⟩
    have hfits : FitsProgMax progMax (commandCount (src.take c)) := by simp [FitsProgMax, hcap]
    obtain ⟨w, hscan⟩ := exists_scanText_ok_iff.2 ⟨(neverOverclosed_take_iff ..).2 hnever, hfits⟩
    have h := scanned_of_scanText hscan
    exact ⟨ch, w, hch, hscan, scanChar_eq_error_iff.2 ⟨rfl, .inl ⟨rfl, hmem, h.length_prog ▸ hcap⟩⟩⟩

end Sys2Proof.Machine
end

section
/-! PROOFS. The four tape instructions: what a toggle does to the tape, toggles repeated, and the two moves
(41_tape_ops.md). -/

namespace Sys2Proof.Machine

/-! ## The toggles -/

/-- What a canonical tape reads after a toggle (41_tape_ops.md R107). -/
theorem readTape_toggleCurrent {s : State} (h : tapeWf s.tape) (a : Int) :
    readTape (toggleCurrent s).tape a = if a = s.ptr then readTape s.tape s.ptr ^^^ 1 else readTape s.tape a :=
  readTape_writeTape h s.ptr _ a

/-- A toggle keeps the canonical form. -/
theorem tapeWf_toggleCurrent {s : State} (h : tapeWf s.tape) : tapeWf (toggleCurrent s).tape :=
  tapeWf_writeCurrent h _

/-- Settles O8: the effect of a toggle is that of `toggleCurrent`, which writes the tape only at the pointer. -/
theorem togglesFlipOnlyTheCurrentBit : Obligations.TogglesFlipOnlyTheCurrentBit :=
  ⟨⟨rfl, rfl, rfl, rfl⟩, fun _ s hi hs =>
    ⟨advance (toggleCurrent s), exec_toggle hi s, readTape_toggleCurrent hs, rfl⟩⟩

/-- Two toggles restore every bit, and a canonical tape is determined by its bits (41_tape_ops.md R106). -/
theorem toggleCurrent_toggleCurrent {s : State} (h : tapeWf s.tape) : toggleCurrent (toggleCurrent s) = s := by
  have hwf := tapeWf_toggleCurrent h
  have hread (a : Int) : readTape (toggleCurrent (toggleCurrent s)).tape a = readTape s.tape a := by
    rw [readTape_toggleCurrent hwf, toggleCurrent_ptr, readTape_toggleCurrent h, readTape_toggleCurrent h]
    by_cases ha : a = s.ptr
    · rw [if_pos ha, if_pos rfl, ha, BitVec.xor_assoc, BitVec.xor_self, BitVec.xor_zero]
    · rw [if_neg ha, if_neg ha]
  have htape : (toggleCurrent (toggleCurrent s)).tape = s.tape :=
    canonicalTapesThatReadAlikeAreEqual _ _ (tapeWf_toggleCurrent hwf) h hread
  calc toggleCurrent (toggleCurrent s)
    _ = { s with tape := (toggleCurrent (toggleCurrent s)).tape } := rfl
    _ = s := by rw [htape]

/-- Settles O9: two toggles restore the state, so `n` toggles do what `n % 2` toggles do. -/
theorem repeatedTogglesKeepParity : Obligations.RepeatedTogglesKeepParity := by
  intro s n hs
  have hperiod : Function.IsPeriodicPt toggleCurrent 2 s := toggleCurrent_toggleCurrent hs
  rw [← hperiod.iterate_mod_apply n]
  rcases Nat.mod_two_eq_zero_or_one n with h | h <;> rw [h] <;> rfl

/-! ## The moves -/

/-- Settles O10: LEFT has two ways to go, told apart by the range. -/
theorem leftMovesDownOrRaisesTapeRange : Obligations.LeftMovesDownOrRaisesTapeRange := by
  refine ⟨⟨rfl, rfl⟩, fun s => ?_⟩
  rcases exec_left_cases s with ⟨⟨m, hm, hlt⟩, he⟩ | ⟨hrange, he⟩
  · exact ⟨fun hrange => absurd hlt (hrange m hm).not_gt, fun _ => he⟩
  · exact ⟨fun _ => he, fun ⟨m, hm, hlt⟩ => absurd hlt (hrange m hm).not_gt⟩

/-- Settles O11: RIGHT has two ways to go, told apart by the range. -/
theorem rightMovesUpOrRaisesTapeRange : Obligations.RightMovesUpOrRaisesTapeRange := by
  refine ⟨⟨rfl, rfl⟩, fun s => ?_⟩
  rcases exec_right_cases s with ⟨⟨m, hm, hlt⟩, he⟩ | ⟨hrange, he⟩
  · exact ⟨fun hrange => absurd hlt (hrange m hm).not_gt, fun _ => he⟩
  · exact ⟨fun _ => he, fun ⟨m, hm, hlt⟩ => absurd hlt (hrange m hm).not_gt⟩

end Sys2Proof.Machine
end

section
/-! PROOFS. The two I/O instructions: which bit IN delivers and where the input stands after it, and how OUT packs the bits
of a byte and hands it over (42_io_ops.md). -/

namespace Sys2Proof.Machine

/-! ## The unpacker -/

/-- What a canonical tape reads after a write at the pointer. -/
theorem readTape_writeCurrent {s : State} (h : tapeWf s.tape) (v : Bit) (a : Int) :
    readTape (writeCurrent v s).tape a = if a = s.ptr then v else readTape s.tape a :=
  readTape_writeTape h s.ptr v a

/-- An IN whose `read_bit()` delivers a bit stores it at the pointer and completes (42_io_ops.md R112). -/
theorem exec_inBit_of_readBit {s u : State} {v : Bit} (h : readBit s = some (v, u)) :
    exec .inBit s = .next (advance (writeCurrent v u)) := by
  rcases exec_inBit_cases s with ⟨v', u', hr, he⟩ | ⟨hr, -⟩ <;> cases h.symm.trans hr
  exact he

/-- While input lasts, an answered `InPull` brings the byte at the cursor (20_memory.md R43). -/
theorem inPull_of_answered {s : State} {b : Byte} (ha : hostAnswersPull s = true) (hb : s.host.inp[s.inCur]? = some b) :
    inPull s = .byte b := by
  simp [inPull, ha, hb]

/-- Settles O12: `read_bit()` delivers from the buffer, and the write is at the pointer. -/
theorem inDeliversTheNextBufferedBit : Obligations.InDeliversTheNextBufferedBit := by
  intro s hs hpos _
  refine ⟨_, exec_inBit_of_readBit (readBit_of_buffered (Nat.ne_of_gt hpos)), fun a => ?_, rfl⟩
  rw [← bitOf_eq]
  exact readTape_writeCurrent (s := dropInputBit s) hs _ a

/-- Settles O13: `read_bit()` takes the byte at the cursor and delivers its bit 0. -/
theorem inPullsTheNextByteWhenExhausted : Obligations.InPullsTheNextByteWhenExhausted := by
  intro s b hs hrem heos ha hb
  refine ⟨_, exec_inBit_of_readBit (readBit_of_byte hrem heos (inPull_of_answered ha hb)), fun a => ?_, rfl⟩
  rw [← bitOf_eq]
  exact readTape_writeCurrent (s := dropInputBit (takeByte b s)) hs _ a

/-! ## The input stream, bit by bit -/

/-- Where the delivered bits stand in the input while the current byte has bits left (42_io_ops.md R111). -/
theorem bitsDelivered_of_buffered {s : State} (hpos : 0 < s.inRem) (hle : s.inRem ≤ 7) (hcur : 0 < s.inCur) :
    bitsDelivered s / 8 = s.inCur - 1 ∧ bitsDelivered s % 8 = 8 - s.inRem := by
  unfold bitsDelivered
  omega

/-- At a byte boundary the delivered bits are those of the bytes taken (42_io_ops.md R111). -/
theorem bitsDelivered_of_exhausted {s : State} (hrem : s.inRem = 0) : bitsDelivered s = 8 * s.inCur := by
  rw [bitsDelivered, hrem, Nat.sub_zero]

/-- The stream is not known to have ended where it has a byte at the cursor (10_state.md R17). -/
theorem UnpackerOk.inEos_eq_false {s : State} (h : UnpackerOk s) {b : Byte} (hb : s.host.inp[s.inCur]? = some b) :
    s.inEos = false := by
  have hlt : s.inCur < s.host.inp.length := (List.getElem?_eq_some_iff.1 hb).1
  exact Bool.eq_false_of_not_eq_true fun heos => hlt.ne (h.in_eos_end heos).1

/-- Settles O16: at a byte boundary the byte of bit `k` is the one IN pulls (O13), and otherwise the one in the buffer
(O12). -/
theorem deliveredBitsFollowTheInput : Obligations.DeliveredBitsFollowTheInput := by
  intro s b hs hinv hans hb
  rcases Nat.eq_zero_or_pos s.inRem with hrem | hpos
  · have hk := bitsDelivered_of_exhausted hrem
    have hcur : s.host.inp[s.inCur]? = some b := by simpa [hk] using hb
    obtain ⟨t, ht, hread, hframe⟩ :=
      inPullsTheNextByteWhenExhausted s b hs hrem (hinv.unpackerOk.inEos_eq_false hcur) (hans hrem) hcur
    refine ⟨t, ht, by simpa [hk] using hread s.ptr, ?_⟩
    rw [hframe, hk]
    simp only [bitsDelivered]
    omega
  · have hle : s.inRem ≤ 7 := hinv.in_rem_le
    obtain ⟨hcur, hbuf⟩ := hinv.in_buf_last hpos
    obtain ⟨hbyte, hbit⟩ := bitsDelivered_of_buffered hpos hle hcur
    have hsame : s.inBuf = b := Option.some.inj (hbuf.symm.trans (hbyte ▸ hb))
    obtain ⟨t, ht, hread, hframe⟩ := inDeliversTheNextBufferedBit s hs hpos hle
    refine ⟨t, ht, by simpa [hbit, hsame] using hread s.ptr, ?_⟩
    rw [hframe]
    simp only [bitsDelivered]
    omega

/-! ## The packer -/

/-- The byte that OUT packs is determined by its bits (42_io_ops.md R114). -/
theorem eq_withBit_of_getLsbD {w b : Byte} {i : Nat} {v : Bit}
    (h : ∀ k < 8, w.getLsbD k = if k = i then decide (v = 1) else b.getLsbD k) : w = withBit b i v :=
  BitVec.eq_of_getLsbD_eq fun k hk => by rw [h k hk, getLsbD_withBit b v hk]

/-- An OUT whose `write_bit(T[P])` raises nothing completes with it (42_io_ops.md R115). -/
theorem exec_outBit_of_writeBit {s u : State} (h : writeBit (currentBit s) s = some u) :
    exec .outBit s = .next (advance u) := by
  rcases exec_outBit_cases s with ⟨u', hw, he⟩ | ⟨hw, -⟩ <;> cases h.symm.trans hw
  exact he

/-- An OUT whose byte is refused raises OutputUnwritable (42_io_ops.md R115). -/
theorem exec_outBit_of_writeBit_none {s : State} (h : writeBit (currentBit s) s = none) :
    exec .outBit s = .next (raiseFault .outputUnwritable s) := by
  rcases exec_outBit_cases s with ⟨u, hw, -⟩ | ⟨-, he⟩
  · cases h.symm.trans hw
  · exact he

/-- Settles O17: OUT writes `w`, and the count and the host's answer tell its three ways apart. -/
theorem outPacksPushesOrRaisesOutputUnwritable : Obligations.OutPacksPushesOrRaisesOutputUnwritable := by
  refine ⟨⟨rfl, rfl⟩, fun s w hw => ?_⟩
  obtain rfl : w = withBit s.outBuf s.outCnt (currentBit s) := eq_withBit_of_getLsbD hw
  rcases writeBit_cases (currentBit s) s with ⟨hcnt, hwrite⟩ | ⟨hcnt, hpush, hwrite⟩ | ⟨hcnt, hpush, hwrite⟩
  · exact ⟨fun _ => exec_outBit_of_writeBit hwrite, fun h => absurd h hcnt.ne, fun h => absurd h hcnt.ne⟩
  · exact ⟨fun h => absurd h hcnt.not_gt, fun _ _ => exec_outBit_of_writeBit hwrite, fun _ h => by simp [hpush] at h⟩
  · exact ⟨fun h => absurd h hcnt.not_gt, fun _ h => by simp [hpush] at h, fun _ _ => exec_outBit_of_writeBit_none hwrite⟩

/-! ## A byte written bit by bit -/

/-- The bits of `b` below bit `n`, the others 0: what the packer holds after the first `n` bits of `b`. -/
def lowBits (b : Byte) (n : Nat) : Byte := (b.setWidth n).setWidth 8

theorem getLsbD_lowBits (b : Byte) (n : Nat) {k : Nat} (hk : k < 8) :
    (lowBits b n).getLsbD k = (decide (k < n) && b.getLsbD k) := by
  simp [lowBits, BitVec.getLsbD_setWidth, hk]

theorem lowBits_zero (b : Byte) : lowBits b 0 = 0x00 :=
  BitVec.eq_of_getLsbD_eq fun k hk => by simp [getLsbD_lowBits b 0 hk]

theorem lowBits_eight (b : Byte) : lowBits b 8 = b := BitVec.setWidth_eq _

/-- Entering bit `n` of `b` above the bits below it. -/
theorem withBit_lowBits (b : Byte) (n : Nat) : withBit (lowBits b n) n (bitOf b n) = lowBits b (n + 1) := by
  refine (eq_withBit_of_getLsbD fun k hk => ?_).symm
  rw [getLsbD_lowBits b _ hk, getLsbD_lowBits b _ hk, bitOf_eq]
  by_cases h : k = n
  · simp [h]
  · have hlt : k < n + 1 ↔ k < n := by omega
    simp [h, hlt]

/-- The packer holding the first `n` bits of `b`, the rest of the state that of `s`. -/
def packedState (b : Byte) (n : Nat) (s : State) : State := { s with outBuf := lowBits b n, outCnt := n }

/-- Below the eighth, a bit of `b` is packed on those before it. -/
theorem writeBit_packedState {n : Nat} (hn : n < 7) (b : Byte) (s : State) :
    writeBit (bitOf b n) (packedState b n s) = some (packedState b (n + 1) s) := by
  rcases writeBit_cases (bitOf b n) (packedState b n s) with ⟨-, h⟩ | ⟨h, -⟩ | ⟨h, -⟩
  · rw [h]
    simp only [packedState, packBit, withBit_lowBits]
  · exact absurd hn h.not_gt
  · exact absurd hn h.not_gt

/-- The eighth bit hands `b` over, if the host takes it. -/
theorem writeBit_packedState_seven {b : Byte} {s : State} (hpush : outPush b s = .ok) :
    writeBit (bitOf b 7) (packedState b 7 s) = some (pushByte b s) := by
  have hbyte : withBit (packedState b 7 s).outBuf (packedState b 7 s).outCnt (bitOf b 7) = b :=
    (withBit_lowBits b 7).trans (lowBits_eight b)
  rcases writeBit_cases (bitOf b 7) (packedState b 7 s) with ⟨h, -⟩ | ⟨-, -, h⟩ | ⟨-, h, -⟩
  · exact absurd h (lt_irrefl 7)
  · rw [h, hbyte]
    rfl
  · rw [hbyte] at h
    cases hpush.symm.trans h

/-- Up to seven bits of `b`, written from an empty packer, are held in it. -/
theorem foldlM_writeBit_eq_packedState {s : State} (hbuf : s.outBuf = 0x00) (hcnt : s.outCnt = 0) (b : Byte) (n : Nat)
    (hn : n ≤ 7) : (List.range n).foldlM (fun u k => writeBit (bitOf b k) u) s = some (packedState b n s) := by
  induction n with
  | zero =>
    have hempty : packedState b 0 s = s := by rw [packedState, lowBits_zero, ← hbuf, ← hcnt]
    rw [hempty]
    rfl
  | succ n ih =>
    rw [List.range_succ, List.foldlM_append, ih (Nat.le_of_succ_le hn)]
    simp [writeBit_packedState hn]

/-- Settles O18: seven bits are packed, and the eighth pushes. -/
theorem eightWrittenBitsEmitTheirByte : Obligations.EightWrittenBitsEmitTheirByte := by
  intro s b hbuf hcnt hpush
  rw [List.range_succ, List.foldlM_append, foldlM_writeBit_eq_packedState hbuf hcnt b 7 le_rfl]
  simp [writeBit_packedState_seven hpush]

end Sys2Proof.Machine
end

section
/-! PROOFS. The two conditional jumps: taken or not by the current bit, and in a well-formed Program never without a target
(43_jump_ops.md). -/

namespace Sys2Proof.Machine

/-! ## Taken and not taken -/

/-- The current bit makes the bracket `i` jump (43_jump_ops.md R130, R131). -/
def JumpTaken (s : State) : Instr → Prop
  | .jzf => readTape s.tape s.ptr = 0
  | .jnzb => readTape s.tape s.ptr ≠ 0
  | .tglPlus | .inBit | .tglMinus | .outBit | .left | .right => False

/-- All that a bracket can do, the same for both once it is known whether the jump is taken. -/
theorem exec_bracket_cases {i : Instr} (hi : i = .jzf ∨ i = .jnzb) (s : State) :
    (¬ JumpTaken s i ∧ exec i s = .next (advance s)) ∨
    (JumpTaken s i ∧ ∃ j, jumpAt s.jt s.ip = some j ∧ exec i s = .next (completeAt (j + 1) s)) ∨
    (JumpTaken s i ∧ jumpAt s.jt s.ip = none ∧ exec i s = .fault .noJumpTarget) := by
  rcases hi with rfl | rfl
  · exact exec_jzf_cases s
  · exact (exec_jnzb_cases s).imp_left fun ⟨hzero, he⟩ => ⟨not_not.2 hzero, he⟩

/-- A taken bracket with a table entry goes on past its match. -/
theorem exec_bracket_of_taken {i : Instr} {s : State} {j : Nat} (hi : i = .jzf ∨ i = .jnzb) (ht : JumpTaken s i)
    (hj : jumpAt s.jt s.ip = some j) : exec i s = .next (completeAt (j + 1) s) := by
  rcases exec_bracket_cases hi s with ⟨hnot, -⟩ | ⟨-, k, hk, he⟩ | ⟨-, hnone, -⟩
  · exact absurd ht hnot
  · cases hj.symm.trans hk
    exact he
  · cases hj.symm.trans hnone

/-- A bracket that is not taken advances by 1. -/
theorem exec_bracket_of_not_taken {i : Instr} {s : State} (hi : i = .jzf ∨ i = .jnzb) (ht : ¬ JumpTaken s i) :
    exec i s = .next (advance s) := by
  rcases exec_bracket_cases hi s with ⟨-, he⟩ | ⟨htaken, -⟩ | ⟨htaken, -⟩
  · exact he
  · exact absurd htaken ht
  · exact absurd htaken ht

/-- Settles O20: JZF is taken where the current bit is 0. -/
theorem jzfJumpsPastItsMatchOnZero : Obligations.JzfJumpsPastItsMatchOnZero :=
  ⟨⟨rfl, rfl⟩, fun _ => ⟨fun _ hj hzero => exec_bracket_of_taken (.inl rfl) hzero hj,
    fun hone => exec_bracket_of_not_taken (.inl rfl) hone⟩⟩

/-- Settles O21: JNZB is taken where the current bit is not 0. -/
theorem jnzbJumpsIntoItsLoopOnNonzero : Obligations.JnzbJumpsIntoItsLoopOnNonzero :=
  ⟨⟨rfl, rfl⟩, fun _ => ⟨fun _ hj hone => exec_bracket_of_taken (.inr rfl) hone hj,
    fun hzero => exec_bracket_of_not_taken (.inr rfl) (not_not.2 hzero)⟩⟩

/-! ## Targets -/

/-- In a well-formed Program every bracket has a table entry (40_loader_bracket_table.md R85 item 1). -/
theorem exists_jumpAt_of_isBracket {prog : List Operation} {jt : List (Option Nat)} {k : Nat} {op : Operation}
    (hok : ProgramOk prog jt) (hf : prog[k]? = some op) (hop : op.isBracket = true) : ∃ j, jumpAt jt k = some j := by
  obtain ⟨⟨-, hentries⟩, -⟩ := hok
  have hk : k < prog.length := (List.getElem?_eq_some_iff.1 hf).1
  rw [← Option.isSome_iff_exists, hentries k hk, hf]
  exact hop

/-- A bracket with a table entry completes, at one of its two next indices. -/
theorem exec_bracket_of_jumpAt {i : Instr} {s : State} {j : Nat} (hi : i = .jzf ∨ i = .jnzb)
    (hj : jumpAt s.jt s.ip = some j) : ∃ n, exec i s = .next (completeAt n s) ∧ NextIp s n := by
  by_cases ht : JumpTaken s i
  · exact ⟨j + 1, exec_bracket_of_taken hi ht hj, .inr ⟨j, hj, rfl⟩⟩
  · exact ⟨s.ip + 1, exec_bracket_of_not_taken hi ht, .inl rfl⟩

/-- An instruction that completes never leaves `ip` at the first instruction: both ways on add 1. -/
theorem NextIp.pos {s : State} {n : Nat} (h : NextIp s n) : 0 < n := by
  rcases h with rfl | ⟨j, -, rfl⟩
  · exact Nat.succ_pos _
  · exact Nat.succ_pos _

/-- Settles O22: a bracket of a well-formed Program has a table entry, so it completes, and both its next indices are in
range. -/
theorem jumpTargetsAreInRange : Obligations.JumpTargetsAreInRange := by
  intro s hok i hi hf
  have hop : i.operation.isBracket = true := by rcases hi with rfl | rfl <;> rfl
  have hip : s.ip < s.len := (List.getElem?_eq_some_iff.1 hf).1
  obtain ⟨j, hj⟩ := exists_jumpAt_of_isBracket hok hf hop
  obtain ⟨n, he, hn⟩ := exec_bracket_of_jumpAt hi hj
  exact ⟨completeAt n s, he, hn.pos, hn.le_len hok hip⟩

end Sys2Proof.Machine
end

section
/-! PROOFS. The engine: the checks at a step boundary, the fetch and the hold, what one completed step can change, that a
legal machine always steps on, how a run begins, and how the budget bounds and ends it (44_engine_cycle.md). -/

namespace Sys2Proof.Machine

/-! ## The step boundary -/

theorem engineStarted_iff (s : State) : engineStarted s = true ↔ s.ldState = .loaded ∧ s.started = true := by
  simp [engineStarted]

/-- When nothing happens at a boundary (44_engine_cycle.md R148, R149, 70_reset_and_hazards.md R212). -/
theorem boundary_eq_stay_iff (s : State) :
    boundary s = .stay ↔ engineStarted s = false ∨ s.fault ≠ none ∨ s.ip = s.len := by
  unfold boundary
  cases engineStarted s with
  | false => simp
  | true =>
    cases s.fault with
    | some c => simp
    | none =>
      by_cases hip : s.ip = s.len
      · simp [hip]
      · cases s.hold <;> cases stopRequested s <;> cases budgetMet s <;> simp [hip]

/-- A Faulted run is over (44_engine_cycle.md R149). -/
theorem boundary_eq_stay_of_fault {s : State} (h : s.fault ≠ none) : boundary s = .stay :=
  (boundary_eq_stay_iff s).2 (.inr (.inl h))

/-- A run that has reached the end of the store is over (44_engine_cycle.md R148). -/
theorem boundary_eq_stay_of_ip_eq_len {s : State} (h : s.ip = s.len) : boundary s = .stay :=
  (boundary_eq_stay_iff s).2 (.inr (.inr h))

theorem step_of_stay {s : State} (hb : boundary s = .stay) : step s = .next s := by simp only [step, hb]

theorem step_of_raise {s : State} {c : FaultCause} (hb : boundary s = .raise c) :
    step s = .next (raiseFault c s) := by
  simp only [step, hb]

/-- The boundary of an unfinished run, where no IN is held: stop request, budget, execution (44_engine_cycle.md R148). -/
theorem boundary_of_running {s : State} (hst : engineStarted s = true) (hfault : s.fault = none) (hip : s.ip ≠ s.len)
    (hhold : s.hold = none) :
    boundary s = if stopRequested s then .raise .cancelled
      else if s.cfg.stepBudget = some s.steps then .raise .stepBudgetExceeded else .execute := by
  simp [boundary, budgetMet, hst, hfault, hip, hhold]

/-- A fetch that answers is from an index of the store (44_engine_cycle.md R142). -/
theorem ip_ne_len_of_fetched {s : State} {op : Operation} (hf : s.prog[s.ip]? = some op) : s.ip ≠ s.len :=
  (List.getElem?_eq_some_iff.1 hf).1.ne

/-- Settles O26: a fault is one of the ways to stay. -/
theorem faultedEngineStaysUnchanged : Obligations.FaultedEngineStaysUnchanged :=
  fun _ hfault => step_of_stay (boundary_eq_stay_of_fault hfault)

/-- Settles O25: halt is one of the ways to stay, and the other three are the boundary of an unfinished run. -/
theorem boundaryChecksInOrder : Obligations.BoundaryChecksInOrder := by
  intro s hld hst hfault hhold
  have hb (hip : s.ip ≠ s.len) := boundary_of_running ((engineStarted_iff s).2 ⟨hld, hst⟩) hfault hip hhold
  refine ⟨fun hip => step_of_stay (boundary_eq_stay_of_ip_eq_len hip), fun hip hstop => ?_,
    fun hip hstop hbudget => ?_, fun op hf hstop hbudget => ?_⟩
  · exact step_of_raise (by rw [hb hip.ne, if_pos hstop])
  · exact step_of_raise (by rw [hb hip.ne, if_neg (by simp [hstop]), if_pos hbudget])
  · exact step_of_execute (by rw [hb (ip_ne_len_of_fetched hf), if_neg (by simp [hstop]), if_neg hbudget]) hf

/-- The engine cannot tell which symbol a stored operation came from: both toggles mean the same (30_encoding.md R61,
41_tape_ops.md R101). -/
theorem exec_operation_instr (i : Instr) (s : State) : exec i.operation.instr s = exec i s := by
  cases i with
  | tglMinus => exact (exec_toggle (.inl rfl) s).trans (exec_toggle (.inr rfl) s).symm
  | tglPlus | inBit | outBit | left | right | jzf | jnzb => rfl

/-- Settles O24: it is the last of the checks in order (O25), for the symbol instead of the operation. -/
theorem stepRunsTheFetchedInstruction : Obligations.StepRunsTheFetchedInstruction := by
  intro s i hld hst hfault hhold hstop hbudget hf
  obtain ⟨-, -, -, hexec⟩ := boundaryChecksInOrder s hld hst hfault hhold
  exact (hexec i.operation hf hstop hbudget).trans (exec_operation_instr i s)

/-! ## The hold of an IN -/

/-- An IN whose `read_bit()` waits holds (44_engine_cycle.md R150). -/
theorem exec_inBit_of_readBit_none {s : State} (h : readBit s = none) : exec .inBit s = .next (holdInput s) := by
  rcases exec_inBit_cases s with ⟨v, u, hr, -⟩ | ⟨-, he⟩
  · cases h.symm.trans hr
  · exact he

/-- Settles O15: `read_bit()` waits for the host, and a held IN has passed its boundary. -/
theorem inHoldsUntilTheHostAnswers : Obligations.InHoldsUntilTheHostAnswers := by
  refine ⟨fun s hrem heos hans => ?_, fun s hld hst hfault hhold hf => ?_⟩
  · have hpull : inPull s = .unanswered := by simp [inPull, hans]
    exact exec_inBit_of_readBit_none (readBit_of_unanswered hrem heos hpull)
  · have hb : boundary s = .execute := (boundary_eq_execute_iff s).2
      ⟨(engineStarted_iff s).2 ⟨hld, hst⟩, hfault, ip_ne_len_of_fetched hf, .inl hhold⟩
    exact step_of_execute hb hf

/-! ## A placed instruction (log 9) -/

theorem decodeTableWord_eq_some_iff (nbits w : Nat) (i : Instr) :
    decodeTableWord nbits w = some i ↔ decodeChar (firstCharOfWord nbits w) = .command i := by
  unfold decodeTableWord
  cases decodeChar (firstCharOfWord nbits w) <;> simp

/-- The smallest Program of an instruction holds its operation at the given index. -/
theorem smallestProgram_fetch (i : Instr) :
    (smallestProgram (.command i)).1[(smallestProgram (.command i)).2.2]? = some i.operation := by
  cases i <;> rfl

theorem scheduleAt_withoutStopAt (n : Nat) (h : HostSide) : scheduleAt (withoutStopAt n h).stop n = false := by
  unfold withoutStopAt
  split
  · rfl
  · next hstop => exact Bool.eq_false_of_not_eq_true hstop

theorem stepBudget_withoutBudgetAt_ne (n : Nat) (c : Cfg) : (withoutBudgetAt n c).stepBudget ≠ some n := by
  unfold withoutBudgetAt
  split
  · exact Option.some_ne_none n ∘ Eq.symm
  · assumption

/-- Settles O53: placing removes every check that would come before the fetch, so the step runs what is fetched (O24). -/
theorem placedWordIsTheNextInstruction : Obligations.PlacedWordIsTheNextInstruction := by
  intro s nbits w i hw
  have hplaced : s.withFetchWord nbits w = placeInstruction (.command i) s := by
    rw [State.withFetchWord, (decodeTableWord_eq_some_iff nbits w i).1 hw]
  rw [hplaced]
  exact stepRunsTheFetchedInstruction (placeInstruction (.command i) s) i rfl rfl rfl rfl
    (scheduleAt_withoutStopAt s.steps s.host) (stepBudget_withoutBudgetAt_ne s.steps s.cfg) (smallestProgram_fetch i)

/-! ## What one completed step can change -/

namespace InstrWork

variable {s u : State} {i : Instr}

/-- The only tape access that writes is at the pointer (20_memory.md R41, 41_tape_ops.md R107). -/
theorem readTape_of_ne (w : InstrWork s i u) (hs : Machine.tapeWf s.tape) {a : Int} (ha : a ≠ s.ptr) :
    readTape u.tape a = readTape s.tape a := by
  have hwrite (v : Bit) : readTape (writeTape s.tape s.ptr v) a = readTape s.tape a := by
    rw [readTape_writeTape hs, if_neg ha]
  cases w with
  | toggle | inBuffered | inKnownEnd | inByte | inEnd => exact hwrite _
  | left | right | outPack | outPush | bracket => rfl

/-- A move is by exactly 1, and nothing else moves the pointer (41_tape_ops.md R102, R103). -/
theorem natAbs_ptr_sub_le (w : InstrWork s i u) : (u.ptr - s.ptr).natAbs ≤ 1 := by
  cases w with
  | left | right =>
    simp only [setPtr_ptr]
    omega
  | toggle | inBuffered | inKnownEnd | inByte | inEnd | outPack | outPush | bracket => simp

/-- Only a taken byte, a found end and a pushed byte are transactions, and each is one (42_io_ops.md R117). -/
theorem transactions_bounds (w : InstrWork s i u) :
    transactions s ≤ transactions u ∧ transactions u ≤ transactions s + 1 := by
  cases w with
  | inByte heos =>
    simp only [transactions, pullsAnswered, writeCurrent_inCur, writeCurrent_inEos, writeCurrent_outCur,
      dropInputBit_inCur, dropInputBit_inEos, dropInputBit_outCur, takeByte_inCur, takeByte_inEos, takeByte_outCur, heos]
    omega
  | inEnd =>
    simp only [transactions, pullsAnswered, writeCurrent_inCur, writeCurrent_inEos, writeCurrent_outCur, takeEos_inCur,
      takeEos_inEos, takeEos_outCur, if_true]
    split <;> omega
  | outPush => exact ⟨Nat.le_succ _, le_rfl⟩
  | toggle | left | right | inBuffered | inKnownEnd | outPack | bracket => exact ⟨le_rfl, Nat.le_succ _⟩

end InstrWork

/-- Settles O29, by the effects of a step: a completion changes what the instruction's work changes, and counts itself. -/
theorem stepEffectIsBounded : Obligations.StepEffectIsBounded := by
  intro s t hs h
  rcases step_effect h with rfl | ⟨c, rfl⟩ | rfl | ⟨i, u, n, w, rfl⟩
  · exact .inl rfl
  · exact .inr (.inl ⟨c, rfl⟩)
  · exact .inr (.inr (.inl ⟨_, rfl⟩))
  · exact .inr (.inr (.inr ⟨congrArg (· + 1) w.steps_eq, w.fault_eq, fun _ ha => w.readTape_of_ne hs ha,
      w.natAbs_ptr_sub_le, w.transactions_bounds⟩))

/-! ## A legal machine steps on -/

/-- An instruction that is no bracket always answers a next state (60_exceptions.md R192). -/
theorem exists_exec_next_of_not_bracket {i : Instr} (hi : i.operation.isBracket = false) (s : State) :
    ∃ t, exec i s = .next t := by
  cases i with
  | tglPlus => exact ⟨_, exec_toggle (.inl rfl) s⟩
  | tglMinus => exact ⟨_, exec_toggle (.inr rfl) s⟩
  | inBit => rcases exec_inBit_cases s with ⟨v, u, -, he⟩ | ⟨-, he⟩ <;> exact ⟨_, he⟩
  | outBit => rcases exec_outBit_cases s with ⟨u, -, he⟩ | ⟨-, he⟩ <;> exact ⟨_, he⟩
  | left => rcases exec_left_cases s with ⟨-, he⟩ | ⟨-, he⟩ <;> exact ⟨_, he⟩
  | right => rcases exec_right_cases s with ⟨-, he⟩ | ⟨-, he⟩ <;> exact ⟨_, he⟩
  | jzf | jnzb => cases hi

/-- In a well-formed Program the fetched instruction answers a next state: a bracket because its target is in range. -/
theorem exists_exec_next {s : State} {op : Operation} (hok : ProgramOk s.prog s.jt) (hf : s.prog[s.ip]? = some op) :
    ∃ t, exec op.instr s = .next t := by
  cases op with
  | jumpIfZeroForward =>
    obtain ⟨t, he, -⟩ := jumpTargetsAreInRange s hok .jzf (.inl rfl) hf
    exact ⟨t, he⟩
  | jumpIfNonZeroBackward =>
    obtain ⟨t, he, -⟩ := jumpTargetsAreInRange s hok .jnzb (.inr rfl) hf
    exact ⟨t, he⟩
  | toggleBit | moveLeft | moveRight | readBit | writeBit => exact exists_exec_next_of_not_bracket rfl s

/-- Settles O35: where the boundary executes, the invariant has `ip` below `len`, so there is an instruction to fetch. -/
theorem legalMachineAlwaysStepsOn : Obligations.LegalMachineAlwaysStepsOn := by
  intro s hs
  cases hb : boundary s with
  | stay => exact ⟨s, step_of_stay hb⟩
  | raise c => exact ⟨raiseFault c s, step_of_raise hb⟩
  | execute =>
    obtain ⟨hst, -, hne, -⟩ := (boundary_eq_execute_iff s).1 hb
    have hip : s.ip < s.len := lt_of_le_of_ne (hs.run_inv hst).ip_le hne
    have hf := List.getElem?_eq_getElem hip
    obtain ⟨t, he⟩ := exists_exec_next (hs.program_ok ((engineStarted_iff s).1 hst).1) hf
    exact ⟨t, (step_of_execute hb hf).trans he⟩

/-! ## How a run begins -/

/-- START of a loaded Program begins the run (45_host_interface.md R162). -/
theorem engineStarted_start {s : State} (hld : s.ldState = .loaded) (h : HostSide) :
    engineStarted (start h s) = true := by
  rw [start_of_loaded hld, engineStarted_iff]
  exact ⟨hld, rfl⟩

/-- Right after START the run is Halted if there is nothing to run, and Running otherwise (44_engine_cycle.md R141,
R153). -/
theorem runState_start {s : State} (hld : s.ldState = .loaded) (h : HostSide) :
    runState (start h s) = some (if s.len = 0 then .halted else .running) := by
  rw [runState, if_pos (engineStarted_start hld h), start_of_loaded hld]
  rcases Nat.eq_zero_or_pos s.len with hlen | hlen
  · simp [hlen]
  · simp [hlen, hlen.ne, hlen.ne']

/-- The reset values meet the run's part of the invariant, with `P = 0` in the range of a legal `cfg` (00_scope.md R6). -/
theorem runInv_start {s : State} (hlegal : s.cfg.Legal) (hld : s.ldState = .loaded) (h : HostSide) :
    RunInv (start h s) := by
  rw [start_of_loaded hld]
  exact
    { ip_le := Nat.zero_le _
      ptr_range := hlegal
      in_rem_le := Nat.zero_le _
      in_cur_le := Nat.zero_le _
      in_buf_last := fun hrem => absurd hrem (lt_irrefl 0)
      in_eos_end := nofun
      out_cnt_le := Nat.zero_le _
      out_buf_clear := by simp
      out_cur_len := rfl
      fault_step := nofun
      hold_in := fun hne => absurd rfl hne
      steps_le := fun _ _ => ⟨Nat.zero_le _, fun hne => absurd rfl hne⟩ }

/-- The whole invariant right after START of a well-formed Program. -/
theorem inv_start {s : State} (hlegal : s.cfg.Legal) (hld : s.ldState = .loaded) (hok : ProgramOk s.prog s.jt)
    (h : HostSide) : Inv (start h s) where
  tape_canonical := by
    rw [start_of_loaded hld]
    exact tapeWf_nil
  cfg_legal := by
    rw [start_of_loaded hld]
    exact hlegal
  program_ok _ := by
    rw [start_of_loaded hld]
    exact hok
  run_inv _ := runInv_start hlegal hld h

/-- Settles O47: the invariant and the run state after START. -/
theorem startBeginsALegalRun : Obligations.StartBeginsALegalRun :=
  fun _ h hlegal hld hok => ⟨inv_start hlegal hld hok h, runState_start hld h⟩

/-! ## Many steps -/

theorem runSteps_succ {s t : State} (h : step s = .next t) (n : Nat) : runSteps (n + 1) s = runSteps n t := by
  simp only [runSteps, h]

/-- What every step keeps, a run keeps. -/
theorem runSteps_keeps {P : State → Prop} (hstep : ∀ s t, P s → step s = .next t → P t) {n : Nat} {s t : State}
    (hs : P s) (h : runSteps n s = .next t) : P t := by
  induction n generalizing s with
  | zero =>
    cases h
    exact hs
  | succ n ih =>
    cases hx : step s with
    | next u =>
      rw [runSteps_succ hx] at h
      exact ih (hstep s u hs hx) h
    | fault r => simp [runSteps, hx] at h
    | refused r => simp [runSteps, hx] at h

/-- Where every step answers and leads from stage `k` to stage `k + 1`, a run of `n` steps leads `n` stages on. -/
theorem exists_runSteps {P : Nat → State → Prop} (hstep : ∀ k s, P k s → ∃ t, step s = .next t ∧ P (k + 1) t)
    {k : Nat} {s : State} (hs : P k s) (n : Nat) : ∃ t, runSteps n s = .next t ∧ P (k + n) t := by
  induction n generalizing k s with
  | zero => exact ⟨s, rfl, hs⟩
  | succ n ih =>
    obtain ⟨u, hx, hu⟩ := hstep k s hs
    obtain ⟨t, ht, hend⟩ := ih hu
    exact ⟨t, (runSteps_succ hx n).trans ht, by rwa [Nat.add_right_comm] at hend⟩

/-- A run that is over stays as it is (44_engine_cycle.md R148, R149). -/
theorem runSteps_of_stay {s : State} (hb : boundary s = .stay) (n : Nat) : runSteps n s = .next s := by
  induction n with
  | zero => rfl
  | succ n ih => exact (runSteps_succ (step_of_stay hb) n).trans ih

/-! ## A text without commands -/

/-- A scan of characters that are no commands leaves the working copies as they are (30_encoding.md R63). -/
theorem scanText_of_no_commands {src : List Byte} (hsrc : ∀ ch ∈ src, ch ∉ commandCodes) (progMax : Option Nat) (c : Nat)
    (w : Scan) : scanText progMax c src w = .ok w := by
  induction src generalizing c with
  | nil => rfl
  | cons ch rest ih =>
    obtain ⟨hch, hrest⟩ := List.forall_mem_cons.1 hsrc
    rw [scanText_cons_of_ok (nonCommandCharacterIsSkipped progMax c ch w hch)]
    exact ih hrest (c + 1)

/-- Such a text loads as the empty Program, into a machine in which nothing runs. -/
theorem load_of_no_commands {src : List Byte} (hsrc : ∀ ch ∈ src, ch ∉ commandCodes) {s : State}
    (hs : runState s ≠ some .running) : load src s = .next (loadSucceeds [] [] s) := by
  have hload : loadText s.cfg.progMax src = .ok ([], []) :=
    loadText_of_stack_nil (scanText_of_no_commands hsrc _ 0 emptyScan) rfl
  simp only [load, if_neg hs, hload]

/-- A Halted run reads as such (44_engine_cycle.md R152). -/
theorem runResult_of_halted {s : State} (hld : s.ldState = .loaded) (hs : runState s = some .halted) :
    runResult s = some .halted := by
  simp only [runResult, hld, hs]

/-- The run of an empty Program is over before its first step (44_engine_cycle.md R153). -/
theorem boundary_start_of_empty {s : State} (hld : s.ldState = .loaded) (hlen : s.len = 0) (h : HostSide) :
    boundary (start h s) = .stay := by
  rw [start_of_loaded hld]
  exact boundary_eq_stay_of_ip_eq_len hlen.symm

/-- The run of an empty Program reads as Halted (44_engine_cycle.md R153). -/
theorem runResult_start_of_empty {s : State} (hld : s.ldState = .loaded) (hlen : s.len = 0) (h : HostSide) :
    runResult (start h s) = some .halted := by
  refine runResult_of_halted ?_ (by rw [runState_start hld, if_pos hlen])
  rw [start_of_loaded hld]
  exact hld

/-- Settles O49: the empty Program is loaded, and its run is over before the first step. -/
theorem textWithoutCommandsHaltsAtOnce : Obligations.TextWithoutCommandsHaltsAtOnce := by
  intro fuel c src h hsrc
  have hload := load_of_no_commands hsrc (s := { State.reset with cfg := c }) nofun
  have hrun := runSteps_of_stay (boundary_start_of_empty (s := loadSucceeds [] [] { State.reset with cfg := c }) rfl rfl h)
  have hresult := runResult_start_of_empty (s := loadSucceeds [] [] { State.reset with cfg := c }) rfl rfl h
  simp only [invoke, hload, hrun, hresult]
  rfl

/-! ## The budget bounds the run -/

/-- What bounds the executed instructions by STEP_BUDGET = `n`, whatever the Program and `cfg` are otherwise: a held IN is
one of the `n` (44_engine_cycle.md R146, R150). -/
structure WithinBudget (n : Nat) (s : State) : Prop where
  budget : s.cfg.stepBudget = some n
  steps_le : s.steps ≤ n
  hold_lt : s.hold ≠ none → s.steps < n
  hold_in : s.hold ≠ none → s.prog[s.ip]? = some .readBit ∧ s.inRem = 0 ∧ s.inEos = false

namespace WithinBudget

variable {n : Nat} {s t : State} {op : Operation}

theorem start (hld : s.ldState = .loaded) (hbudget : s.cfg.stepBudget = some n) (h : HostSide) :
    WithinBudget n (start h s) := by
  rw [start_of_loaded hld]
  exact ⟨hbudget, Nat.zero_le _, fun hne => absurd rfl hne, fun hne => absurd rfl hne⟩

/-- An engine that executes has not used up its budget (44_engine_cycle.md R148). -/
theorem steps_lt_of_execute (h : WithinBudget n s) (hb : boundary s = .execute) : s.steps < n := by
  obtain ⟨-, -, -, hhold | ⟨-, hne⟩⟩ := (boundary_eq_execute_iff s).1 hb
  · exact h.hold_lt hhold
  · exact lt_of_le_of_ne h.steps_le fun heq => hne (heq ▸ h.budget)

theorem exec (h : WithinBudget n s) (hb : boundary s = .execute) (hf : s.prog[s.ip]? = some op)
    (hx : exec op.instr s = .next t) : WithinBudget n t := by
  have hlt := h.steps_lt_of_execute hb
  cases exec_effect hx with
  | faults => exact { h with }
  | holds hi hrem heos =>
    have hop : op = .readBit := by rw [← operation_instr op, hi]; rfl
    exact { h with hold_lt := fun _ => hlt, hold_in := fun _ => ⟨hop ▸ hf, hrem, heos⟩ }
  | @completes u m w hn =>
    have hnone : u.hold = none := w.hold_eq_none fun hhold => by
      obtain ⟨hread, hrem, heos⟩ := h.hold_in hhold
      cases hf.symm.trans hread
      exact ⟨rfl, hrem, heos⟩
    exact
      { budget := (congrArg Cfg.stepBudget w.sameProgram.cfg).trans h.budget
        steps_le := by simpa [w.steps_eq] using hlt
        hold_lt := fun hne => absurd hnone hne
        hold_in := fun hne => absurd hnone hne }

theorem step (h : WithinBudget n s) (hx : step s = .next t) : WithinBudget n t := by
  rcases step_next_cases hx with ⟨-, rfl⟩ | ⟨c, -, rfl⟩ | ⟨op, hb, hf, hx⟩
  · exact h
  · exact { h with }
  · exact h.exec hb hf hx

end WithinBudget

/-- Settles O36: a run keeps within its budget from START on. -/
theorem budgetBoundsExecutedInstructions : Obligations.BudgetBoundsExecutedInstructions := by
  intro s t h n budget hld hbudget hrun
  exact (runSteps_keeps (fun _ _ => WithinBudget.step) (WithinBudget.start hld hbudget h) hrun).steps_le

/-! ## The budget ends the run -/

/-- A host that answers every `InPull` at its first attempt (45_host_interface.md R163). -/
def PromptHost (h : HostSide) : Prop := ∀ k, scheduleAt h.inDelay k = some 0

/-- No pull stays unanswered by a prompt host. -/
theorem hostAnswersPull_of_promptHost {s : State} (h : PromptHost s.host) : hostAnswersPull s = true := by
  simp [hostAnswersPull, h s.inCur]

/-- With a prompt host no IN is held: `read_bit()` delivers. -/
theorem readBit_ne_none_of_promptHost {s : State} (h : PromptHost s.host) : readBit s ≠ none := by
  have hans := hostAnswersPull_of_promptHost h
  rcases readBit_cases s with ⟨-, hr⟩ | ⟨-, -, hr⟩ | ⟨-, -, -, b, -, hr⟩ | ⟨-, -, -, -, hr⟩ | ⟨-, -, hno, -⟩
  case inr.inr.inr.inr => simp [hans] at hno
  all_goals simp [hr]

/-- An IN is held only where `read_bit()` waits: one that completes has counted a step (44_engine_cycle.md R150). -/
theorem readBit_eq_none_of_holds {s : State} (hx : exec .inBit s = .next (holdInput s)) : readBit s = none := by
  rcases exec_inBit_cases s with ⟨v, u, hr, he⟩ | ⟨hr, -⟩
  · have hsame : advance (writeCurrent v u) = holdInput s := Host.Outcome.next.inj (he.symm.trans hx)
    have hsteps : u.steps + 1 = s.steps := congrArg State.steps hsame
    have hwork : u.steps = s.steps := (instrWork_of_readBit hr).steps_eq
    omega
  · exact hr

/-- With a prompt host every instruction that answers completes or raises a fault. -/
theorem exec_completes_or_faults {i : Instr} {s t : State} (h : PromptHost s.host) (hx : exec i s = .next t) :
    t.steps = s.steps + 1 ∨ t.fault ≠ none := by
  cases exec_effect hx with
  | faults => exact .inr (by simp)
  | holds hi =>
    subst hi
    exact absurd (readBit_eq_none_of_holds hx) (readBit_ne_none_of_promptHost h)
  | completes w => exact .inl (congrArg (· + 1) w.steps_eq)

/-- With a prompt host every step of a run counts itself or ends the run. -/
theorem step_counts_or_ends {s t : State} (h : PromptHost s.host) (hx : step s = .next t) :
    boundary t = .stay ∨ t.steps = s.steps + 1 := by
  rcases step_next_cases hx with ⟨hb, rfl⟩ | ⟨c, -, rfl⟩ | ⟨op, -, -, he⟩
  · exact .inl hb
  · exact .inl (boundary_eq_stay_of_fault (by simp))
  · exact (exec_completes_or_faults h he).symm.imp_left boundary_eq_stay_of_fault

/-- A run that is over is Halted or Faulted (10_state.md R28). -/
theorem runState_of_stay {s : State} (hst : engineStarted s = true) (hb : boundary s = .stay) :
    runState s = some .halted ∨ runState s = some .faulted := by
  rw [runState, if_pos hst]
  split
  · exact .inr rfl
  · next hfault =>
    rcases (boundary_eq_stay_iff s).1 hb with hno | hne | hip
    · simp [hst] at hno
    · exact absurd (by simpa using hfault) hne
    · exact .inl (if_pos hip)

/-- A legal run with a prompt host and a budget, `k` steps after START: it is over, or it has counted them all. -/
structure PromptRun (budget k : Nat) (s : State) : Prop where
  inv : Inv s
  started : engineStarted s = true
  prompt : PromptHost s.host
  budget_eq : s.cfg.stepBudget = some budget
  progress : boundary s = .stay ∨ s.steps = k

namespace PromptRun

variable {budget k : Nat} {s : State}

theorem start (hlegal : s.cfg.Legal) (hld : s.ldState = .loaded) (hok : ProgramOk s.prog s.jt)
    (hbudget : s.cfg.stepBudget = some budget) {h : HostSide} (hprompt : PromptHost h) :
    PromptRun budget 0 (start h s) where
  inv := inv_start hlegal hld hok h
  started := engineStarted_start hld h
  prompt := by
    rw [start_of_loaded hld]
    exact hprompt
  budget_eq := by
    rw [start_of_loaded hld]
    exact hbudget
  progress := .inr (by rw [start_of_loaded hld]; rfl)

theorem step (h : PromptRun budget k s) : ∃ t, step s = .next t ∧ PromptRun budget (k + 1) t := by
  obtain ⟨t, hx⟩ := legalMachineAlwaysStepsOn s h.inv
  have hsame : SameProgram s t := stepsNeverWriteTheProgram s t hx
  refine ⟨t, hx, ?_⟩
  exact
    { inv := stepKeepsTheInvariant s t h.inv hx
      started := by simpa [engineStarted, hsame.ldState, hsame.started] using h.started
      prompt := hsame.host ▸ h.prompt
      budget_eq := hsame.cfg ▸ h.budget_eq
      progress := by
        rcases h.progress with hb | hk
        · cases (step_of_stay hb).symm.trans hx
          exact .inl hb
        · exact hk ▸ step_counts_or_ends h.prompt hx }

/-- One step more than the budget allows cannot have been counted. -/
theorem stay_of_budget_lt (h : PromptRun budget k s) (hk : budget < k) : boundary s = .stay := by
  have hle : s.steps ≤ budget := ((h.inv.run_inv h.started).steps_le budget h.budget_eq).1
  rcases h.progress with hb | hsteps
  · exact hb
  · omega

end PromptRun

/-- Settles O37: after N + 1 steps the run is over, or it would have counted more than N. -/
theorem budgetedRunEnds : Obligations.BudgetedRunEnds := by
  intro s h budget hld hok hlegal hbudget hprompt
  obtain ⟨t, hrun, hend⟩ :=
    exists_runSteps (fun _ _ => PromptRun.step) (PromptRun.start hlegal hld hok hbudget hprompt) (budget + 1)
  exact ⟨t, hrun, runState_of_stay hend.started (hend.stay_of_budget_lt (by omega))⟩

end Sys2Proof.Machine
end

section
/-! PROOFS. The host interface: what a LOAD leaves of the run, what it puts into the Program and the load status, and that a
legal machine stays legal (45_host_interface.md R161). -/

namespace Sys2Proof.Machine

/-! ## The run's state under a LOAD -/

theorem sameRun_loadSucceeds (prog : List Operation) (jt : List (Option Nat)) (s : State) :
    SameRun s (loadSucceeds prog jt s) := by
  constructor <;> simp

theorem sameRun_loadFails (kind : LoadErrorKind) (pos : Nat) (s : State) : SameRun s (loadFails kind pos s) := by
  constructor <;> simp

/-- Settles O44: by all that LOAD can do, one case for each outcome of the loader. -/
theorem loadSetsTheStatusAndLeavesTheRun : Obligations.LoadSetsTheStatusAndLeavesTheRun := by
  intro s src hs
  rcases load_cases src s with ⟨hr, -⟩ | ⟨-, prog, jt, htext, hload⟩ | ⟨-, kind, pos, htext, hload⟩
  · exact absurd hr hs
  · refine ⟨loadSucceeds prog jt s, hload, sameRun_loadSucceeds prog jt s, loadSucceeds_cfg prog jt s, ?_⟩
    simp only [htext, loadSucceeds_ldState, loadSucceeds_prog, loadSucceeds_jt, and_self]
  · refine ⟨loadFails kind pos s, hload, sameRun_loadFails kind pos s, loadFails_cfg kind pos s, ?_⟩
    simp only [htext, loadFails_ldState, loadFails_errKind, loadFails_errPos, and_self]

/-! ## The invariant under a LOAD -/

theorem engineStarted_loadSucceeds (prog : List Operation) (jt : List (Option Nat)) (s : State) :
    engineStarted (loadSucceeds prog jt s) = false := by
  simp [engineStarted]

theorem engineStarted_loadFails (kind : LoadErrorKind) (pos : Nat) (s : State) :
    engineStarted (loadFails kind pos s) = false := by
  simp [engineStarted]

/-- With no run begun the run's part of the invariant asks nothing, so the new Program need only be well formed
(70_reset_and_hazards.md R212). -/
theorem Inv.loadSucceeds {s : State} (h : Inv s) {prog : List Operation} {jt : List (Option Nat)} (hok : ProgramOk prog jt) :
    Inv (loadSucceeds prog jt s) where
  tape_canonical := h.tape_canonical
  cfg_legal := h.cfg_legal
  program_ok _ := hok
  run_inv hst := absurd hst (by simp [engineStarted_loadSucceeds])

/-- A failed load leaves the store and the table with any value, of which the invariant asks nothing while nothing is loaded
(93_implementation_defined.md U18). -/
theorem Inv.loadFails {s : State} (h : Inv s) (kind : LoadErrorKind) (pos : Nat) : Inv (loadFails kind pos s) where
  tape_canonical := h.tape_canonical
  cfg_legal := h.cfg_legal
  program_ok hld := absurd hld (by simp)
  run_inv hst := absurd hst (by simp [engineStarted_loadFails])

/-- Settles O45: a LOAD that succeeds loads a well-formed Program (40_loader_bracket_table.md R85), and one that fails none;
neither begins a run. -/
theorem loadKeepsTheInvariant : Obligations.LoadKeepsTheInvariant := by
  intro s t src hs hx
  rcases load_cases src s with ⟨-, hload⟩ | ⟨-, prog, jt, htext, hload⟩ | ⟨-, kind, pos, -, hload⟩ <;>
    cases hload.symm.trans hx
  · have hok : ProgramOk prog jt := loadedProgramIsWellFormed _ _ _ _ htext
    exact ⟨hs.loadSucceeds hok, runState_loadSucceeds prog jt s⟩
  · exact ⟨hs.loadFails kind pos, runState_loadFails kind pos s⟩

end Sys2Proof.Machine
end

section
/-! PROOFS. The exceptions: the end of input that is none, which faults an instruction can raise, what entering one changes,
and the exit status of every outcome (60_exceptions.md). -/

namespace Sys2Proof.Machine

/-! ## The end of input is not a fault -/

/-- Once the input is used up, an answered `InPull` brings the end of stream (20_memory.md R43). -/
theorem inPull_of_end {s : State} (ha : hostAnswersPull s = true) (hend : s.host.inp[s.inCur]? = none) :
    inPull s = .eos := by
  simp [inPull, ha, hend]

/-- `read_bit()` at the end of input delivers EOF_BIT, whether the end was known or is found now (42_io_ops.md R113). Only
finding it is an answer that ends a hold. -/
theorem readBit_of_endOfInput {s : State} (hrem : s.inRem = 0)
    (hend : s.inEos = true ∨ (hostAnswersPull s = true ∧ s.host.inp[s.inCur]? = none)) :
    readBit s = some (s.cfg.eofBit, { s with inEos := true, hold := if s.inEos then s.hold else none }) := by
  cases heos : s.inEos with
  | true => rw [readBit_of_eos hrem heos, if_pos rfl, ← heos]
  | false =>
    obtain ⟨ha, hnone⟩ := hend.resolve_left (by simp [heos])
    rw [readBit_of_end hrem heos (inPull_of_end ha hnone), if_neg Bool.false_ne_true]
    rfl

/-- Settles O14: `read_bit()` delivers EOF_BIT, and the write is at the pointer. -/
theorem inDeliversEofBitAtEndOfInput : Obligations.InDeliversEofBitAtEndOfInput := by
  intro s hs hrem hend
  exact ⟨_, exec_inBit_of_readBit (readBit_of_endOfInput hrem hend), readTape_writeTape hs s.ptr s.cfg.eofBit, rfl⟩

/-! ## Which faults there are, and what entering one changes -/

/-- Settles O31, by the effects of an instruction: what is no fault leaves the register `fault` as it was. -/
theorem instructionFaultsAreTheListedOnes : Obligations.InstructionFaultsAreTheListedOnes := by
  intro i s t h
  cases exec_effect h with
  | faults hc =>
    rcases hc with ⟨hi, rfl⟩ | ⟨hi, rfl⟩
    · exact .inr (.inl ⟨hi, rfl⟩)
    · exact .inr (.inr ⟨hi, rfl⟩)
  | holds => exact .inl rfl
  | completes w => exact .inl w.fault_eq

/-- The only way a step writes `fault` is fault entry, in a run not yet Faulted (60_exceptions.md R187). -/
theorem raises_of_step_fault_ne {s t : State} (h : step s = .next t) (hne : t.fault ≠ s.fault) :
    engineStarted s = true ∧ s.fault = none ∧ ∃ c, t = raiseFault c s := by
  rcases step_next_cases h with ⟨-, rfl⟩ | ⟨c, hb, rfl⟩ | ⟨op, hb, -, hx⟩
  · exact absurd rfl hne
  · obtain ⟨hst, hfault, -⟩ := boundary_raise hb
    exact ⟨hst, hfault, c, rfl⟩
  · obtain ⟨hst, hfault, -⟩ := (boundary_eq_execute_iff s).1 hb
    cases exec_effect hx with
    | faults => exact ⟨hst, hfault, _, rfl⟩
    | holds => exact absurd rfl hne
    | completes w => exact absurd w.fault_eq hne

/-- A started engine with a fault is Faulted, wherever its `ip` is (10_state.md R28). -/
theorem runState_of_fault {s : State} {c : FaultCause} (hst : engineStarted s = true) (hfault : s.fault = some c) :
    runState s = some .faulted := by
  simp [runState, hst, hfault]

/-- Settles O28: a step that writes `fault` is fault entry, which writes nothing else. -/
theorem faultEntryChangesOnlyFault : Obligations.FaultEntryChangesOnlyFault := by
  intro s t h hne
  obtain ⟨hst, hfault, c, rfl⟩ := raises_of_step_fault_ne h hne
  exact ⟨hfault, rfl, runState_of_fault (s := raiseFault c s) hst rfl⟩

/-! ## The exit status -/

/-- Before any LOAD there is no exit status (60_exceptions.md R185). -/
theorem exitStatus_of_unloaded {s : State} (hld : s.ldState = .unloaded) : exitStatus s = none := by
  simp only [exitStatus, runResult, hld, Option.map_none]

/-- A failed load has an exit status of its own, whatever the run state is (60_exceptions.md R181, R185). -/
theorem exitStatus_of_loadFailed {s : State} (hld : s.ldState = .loadFailed) :
    exitStatus s = some (resultCodes (loadFailure s.errKind s.errPos)) := by
  simp only [exitStatus, runResult, hld, Option.map_some]

/-- A Faulted run reads as its fault (44_engine_cycle.md R152). -/
theorem runResult_of_faulted {s : State} {c : FaultCause} (hld : s.ldState = .loaded) (hs : runState s = some .faulted)
    (hfault : s.fault = some c) : runResult s = some (.runtimeFault c) := by
  simp only [runResult, hld, hs, hfault]

/-- A run with no fault that is not at the end of the store has no result yet (60_exceptions.md R185). -/
theorem runResult_of_unfinished {s : State} (hld : s.ldState = .loaded) (hst : engineStarted s = true)
    (hfault : s.fault = none) (hip : s.ip ≠ s.len) : runResult s = none := by
  have hs : runState s = if s.ip < s.len then some .running else none := by simp [runState, hst, hfault, hip]
  by_cases hlt : s.ip < s.len
  · simp only [runResult, hld, hs, if_pos hlt]
  · simp only [runResult, hld, hs, if_neg hlt]

/-- Settles O50: one case for each load status, and of a started run one for each way it can stand. -/
theorem exitStatusTellsTheOutcome : Obligations.ExitStatusTellsTheOutcome := by
  refine fun s => ⟨exitStatus_of_unloaded, fun hld => ?_, fun hld hstarted => ?_⟩
  · rw [exitStatus_of_loadFailed hld]
    cases s.errKind <;> rfl
  · have hst : engineStarted s = true := (engineStarted_iff s).2 ⟨hld, hstarted⟩
    cases hfault : s.fault with
    | some c =>
      rw [exitStatus, runResult_of_faulted hld (runState_of_fault hst hfault) hfault]
      cases c <;> rfl
    | none =>
      by_cases hip : s.ip = s.len
      · have hs : runState s = some .halted := by simp [runState, hst, hfault, hip]
        rw [exitStatus, runResult_of_halted hld hs]
        exact (if_pos hip).symm
      · rw [exitStatus, runResult_of_unfinished hld hst hfault hip]
        exact (if_neg hip).symm

end Sys2Proof.Machine
end

section
/-! PROOFS. Reset and hazards: without a run there is nothing to step (70_reset_and_hazards.md). -/

namespace Sys2Proof.Machine

/-! ## No run -/

theorem engineStarted_eq_false_iff (s : State) :
    engineStarted s = false ↔ s.ldState ≠ .loaded ∨ s.started = false := by
  rw [← Bool.not_eq_true, engineStarted_iff, Decidable.not_and_iff_not_or_not, Bool.not_eq_true]

/-- An engine with no run stays at its boundary (70_reset_and_hazards.md R212). -/
theorem boundary_eq_stay_of_unstarted {s : State} (h : engineStarted s = false) : boundary s = .stay :=
  (boundary_eq_stay_iff s).2 (.inl h)

/-- Settles O27: to have no run, for either of the two reasons, is one of the ways to stay. -/
theorem unstartedEngineStaysUnchanged : Obligations.UnstartedEngineStaysUnchanged :=
  fun s hno => step_of_stay (boundary_eq_stay_of_unstarted ((engineStarted_eq_false_iff s).2 hno))

end Sys2Proof.Machine
end
